-- ==== Sys2Proof/Word.lean ====
section
/-! DEFINITION. The plain value types of the block: bytes, operation words, usage codes, table
addresses and the scan matrix (00_scope.md R8, R11; 10_state.md R34; 20_memory.md R51). -/

namespace Sys2Proof

/-- One table entry, matrix row, select pattern or output byte (00_scope.md R8). -/
abbrev Byte := BitVec 8

/-- One operation word OW (30_encoding.md R75). -/
abbrev OpWord := BitVec 16

/-- One USB usage code of CODE_WIDTH bits, a parameter (00_scope.md R9), so the number it is; that it is
below 2^CODE_WIDTH is a check (`Snapshot.wf`, `Config.checkWidth`; DESIGN CHOICE, log entry 7). -/
abbrev Code := Nat

/-- A slot number of the two response tables (10_state.md R21). -/
abbrev Slot := BitVec 1

/-- A table memory address `{s, i}` (20_memory.md R51). -/
abbrev Addr := BitVec 9

/-- The scan matrix: 8 row registers of 8 bits (10_state.md R34). -/
abbrev ScanMatrix := Vector Byte 8

end Sys2Proof
end

