-- ==== Sys2Proof/Config.lean ====
section
/-! DEFINITION. What an implementation fixes (the parameters of 00_scope.md R9, one structure) and
the free values, which the spec leaves to the environment (opaque: no proof can see them). -/

namespace Sys2Proof

/-- A matrix coordinate `(r, b)` (30_encoding.md R73). The ranges are checks of a configuration
(60_exceptions.md R236), so the fields are plain numbers (DESIGN CHOICE, log entry 14). -/
structure Coord where
  /-- row number -/
  r : Nat
  /-- data bit -/
  b : Nat
deriving DecidableEq, Repr

/-- A key-map result (30_encoding.md R73). -/
inductive KeyResult where
  /-- `NONE`: no mapping -/
  | noMap
  /-- `KEY(r, b, caps, sym)`: set a bit, and with a forced flag a shift key's bit too -/
  | key (pos : Coord) (caps sym : Bool)
  /-- `RESETK`: the reset virtual key, not in the matrix -/
  | resetK
  /-- `MAGICK`: the magic virtual key, not in the matrix -/
  | magicK
deriving DecidableEq, Repr

/-- STROBE_EDGE (44_strobe_responder.md R180, D9). -/
inductive StrobeEdge where
  | rising
  | falling
deriving DecidableEq, Repr

/-- RESET_ON_NODATA (40_matrix_builder.md R101, D18). -/
inductive NoDataReset where
  | driveLow
  | hold
deriving DecidableEq, Repr

/-- A snapshot of the keyboard: 8 modifier flags and the list of usage codes
(10_state.md R33, 30_encoding.md R74). That there are N_KEYS codes of
CODE_WIDTH bits is `Snapshot.wf`. -/
structure Snapshot where
  mods : Byte
  codes : List Code
deriving DecidableEq, Repr

/-- The parameters of 00_scope.md R9. KEYMAP and JOYMAP are sparse maps (20_memory.md R52): the first
pair with a code gives its value, and a code with no pair maps to NONE, or is no joystick key
(DESIGN CHOICE, log entry 13). -/
structure Config where
  /-- CODE_WIDTH (D12) -/
  codeWidth : Nat
  /-- N_KEYS (D15) -/
  nKeys : Nat
  /-- EMPTY_CODE (D14) -/
  emptyCode : Code
  /-- KEYMAP (D12) -/
  keymap : List (Code × KeyResult)
  /-- CAPS_POS (D17) -/
  capsPos : Coord
  /-- SYM_POS (D17) -/
  symPos : Coord
  /-- GUI_POS (D17) -/
  guiPos : Coord
  /-- JOY_KEYS with their JOYMAP targets (D16) -/
  joymap : List (Code × Coord)
  /-- MODE_ACT_POS (D10) -/
  modeActPos : Coord
  /-- MODE_DEACT_POS (D10) -/
  modeDeactPos : Coord
  /-- MODE_ACT_CODE (D22) -/
  modeActCode : Code
  /-- MODE_DEACT_CODE (D22) -/
  modeDeactCode : Code
  /-- RESET_CODE (D22) -/
  resetCode : Code
  /-- MAGIC_CODE (D22) -/
  magicCode : Code
  /-- STROBE_EDGE (D9); read by `State.strobeEdgeSeen` alone (DEDUCED, log entry 16) -/
  strobeEdge : StrobeEdge
  /-- RESET_ON_NODATA (D18) -/
  resetOnNodata : NoDataReset
  /-- LED_ACTIVE_LEVEL (D20) -/
  ledActiveLevel : Bool
  /-- MAG_ACTIVE_LEVEL (D21) -/
  magActiveLevel : Bool
  /-- MAGIC_HOLD (D21): a duration, `none` where unspecified; no rule reads it (R209; DEDUCED, log entry 17) -/
  magicHold : Option Nat
deriving DecidableEq, Repr

/-- The usage code a number stands for: its low CODE_WIDTH bits (00_scope.md R9, R11). -/
def Config.code (cfg : Config) (n : Nat) : Code := n % 2 ^ cfg.codeWidth

/-- FREE VALUE: the operation word the environment and the interleaving put next when nothing is
scheduled, the n-th draw (60_exceptions.md R238: any enabled step may come next; DESIGN CHOICE, log entry 2). -/
opaque Config.freeWord : Nat → OpWord

/-- FREE VALUE: the modifier flags of the snapshot drawn by a POLL with data, the n-th draw
(40_matrix_builder.md R100, `draw ans`; DESIGN CHOICE, log entry 4). -/
opaque Config.freeMods : Nat → Byte

/-- FREE VALUE: the code in slot j of the snapshot drawn by a POLL with data, the n-th draw
(40_matrix_builder.md R100, `draw ans`; DESIGN CHOICE, log entry 4). -/
opaque Config.freeCode : Nat → Nat → Code

end Sys2Proof
end

