-- ==== Sys2Proof/Machine/Reference.lean ====
section
/-! DEFINITION. The reference configuration RC (00_scope.md R10; 92_eei_decisions.md tables RC-0 to
RC-2). It is the spec's own choice; a claim about RC says nothing of another configuration. -/

namespace Sys2Proof

/-- A KEYMAP row without forced flags. -/
def Config.plain (c : Code) (r b : Nat) : Code × KeyResult := (c, .key ⟨r, b⟩ false false)

/-- A KEYMAP row with forced CAPS shift. -/
def Config.caps (c : Code) (r b : Nat) : Code × KeyResult := (c, .key ⟨r, b⟩ true false)

/-- A KEYMAP row with forced SYM shift. -/
def Config.sym (c : Code) (r b : Nat) : Code × KeyResult := (c, .key ⟨r, b⟩ false true)

/-- Table RC-1, codes 0x04 to 0x10: the letters a to m at their places of table RC-0. -/
def Config.rcLettersAM : List (Code × KeyResult) :=
  [ Config.plain 0x04 1 0, Config.plain 0x05 7 4, Config.plain 0x06 0 3, Config.plain 0x07 1 2,
    Config.plain 0x08 2 2, Config.plain 0x09 1 3, Config.plain 0x0A 1 4, Config.plain 0x0B 6 4,
    Config.plain 0x0C 5 2, Config.plain 0x0D 6 3, Config.plain 0x0E 6 2, Config.plain 0x0F 6 1,
    Config.plain 0x10 7 2 ]

/-- Table RC-1, codes 0x11 to 0x1D: the letters n to z. -/
def Config.rcLettersNZ : List (Code × KeyResult) :=
  [ Config.plain 0x11 7 3, Config.plain 0x12 5 1, Config.plain 0x13 5 0, Config.plain 0x14 2 0,
    Config.plain 0x15 2 3, Config.plain 0x16 1 1, Config.plain 0x17 2 4, Config.plain 0x18 5 3,
    Config.plain 0x19 0 4, Config.plain 0x1A 2 1, Config.plain 0x1B 0 2, Config.plain 0x1C 5 4,
    Config.plain 0x1D 0 1 ]

/-- Table RC-1, codes 0x1E to 0x27: the digits 1 to 9 and 0. -/
def Config.rcDigits : List (Code × KeyResult) :=
  [ Config.plain 0x1E 3 0, Config.plain 0x1F 3 1, Config.plain 0x20 3 2, Config.plain 0x21 3 3,
    Config.plain 0x22 3 4, Config.plain 0x23 4 4, Config.plain 0x24 4 3, Config.plain 0x25 4 2,
    Config.plain 0x26 4 1, Config.plain 0x27 4 0 ]

/-- Table RC-1: Enter, Escape, Backspace, Tab, Space and the punctuation keys. -/
def Config.rcEditing : List (Code × KeyResult) :=
  [ Config.plain 0x28 6 0, Config.caps 0x29 7 0, Config.caps 0x2A 4 0, Config.caps 0x2B 7 1,
    Config.plain 0x2C 7 0, Config.sym 0x2D 6 3, Config.sym 0x2E 6 1, Config.sym 0x33 5 1,
    Config.sym 0x36 7 3, Config.sym 0x37 7 2, Config.sym 0x38 0 4 ]

/-- Table RC-1: F1 to F4, the four special function keys, and the arrows. -/
def Config.rcFunction : List (Code × KeyResult) :=
  [ Config.caps 0x3A 3 0, Config.caps 0x3B 3 1, Config.caps 0x3C 3 2, Config.caps 0x3D 3 3,
    (0x42, .magicK), (0x43, .resetK), Config.plain 0x44 0 5, Config.plain 0x45 0 7,
    Config.caps 0x4F 4 2, Config.caps 0x50 3 4, Config.caps 0x51 4 4, Config.caps 0x52 4 3 ]

/-- Table RC-1: the keypad, which mirrors Enter and the digits. -/
def Config.rcKeypad : List (Code × KeyResult) :=
  [ Config.plain 0x58 6 0, Config.plain 0x59 3 0, Config.plain 0x5A 3 1, Config.plain 0x5B 3 2,
    Config.plain 0x5C 3 3, Config.plain 0x5D 3 4, Config.plain 0x5E 4 4, Config.plain 0x5F 4 3,
    Config.plain 0x60 4 2, Config.plain 0x61 4 1, Config.plain 0x62 4 0 ]

/-- RC (92_eei_decisions.md, tables RC-0 to RC-2, D16). -/
def Config.rc : Config where
  codeWidth := 8
  nKeys := 6
  emptyCode := 0x00
  keymap := Config.rcLettersAM ++ Config.rcLettersNZ ++ Config.rcDigits ++ Config.rcEditing
    ++ Config.rcFunction ++ Config.rcKeypad
  capsPos := ⟨0, 0⟩
  symPos := ⟨7, 1⟩
  guiPos := ⟨4, 0⟩
  joymap := [(0x50, ⟨4, 4⟩), (0x4F, ⟨4, 3⟩), (0x51, ⟨4, 2⟩), (0x52, ⟨4, 1⟩)]
  modeActPos := ⟨0, 5⟩
  modeDeactPos := ⟨0, 7⟩
  modeActCode := 0x44
  modeDeactCode := 0x45
  resetCode := 0x43
  magicCode := 0x42
  strobeEdge := .falling
  resetOnNodata := .driveLow
  ledActiveLevel := true
  magActiveLevel := true
  magicHold := none

end Sys2Proof
end

