-- ==== Sys2Proof/Syntax.lean ====
section
/-! DEFINITION. The operation alphabet: one constructor per row of spec/opcode_table.json
(30_encoding.md R76, R77). -/

namespace Sys2Proof

/-- The operations of the block. Operands carry their width in their type (30_encoding.md R78), so
every term is a well-formed operation. -/
inductive Instr where
  /-- INIT (70_reset_and_hazards.md R262) -/
  | init
  /-- POLL data (40_matrix_builder.md R100); its snapshot is an input of the step (R78) -/
  | pollData
  /-- POLL nodata (40_matrix_builder.md R101) -/
  | pollNodata
  /-- BUILD (40_matrix_builder.md R110) -/
  | build
  /-- LATCH (41_mode_latch.md R140) -/
  | latch
  /-- CENTRY S (42_table_compiler.md R152) -/
  | centry (S : Byte)
  /-- PUBLISH (43_publication.md R170) -/
  | publish
  /-- LEDUPD (45_aux_signaling.md R201) -/
  | ledupd
  /-- RSTUPD (45_aux_signaling.md R203) -/
  | rstupd
  /-- MAG_DI (45_aux_signaling.md R205) -/
  | magDi
  /-- MAG_WRISE (45_aux_signaling.md R206) -/
  | magWrise
  /-- MAG_WFALL (45_aux_signaling.md R207) -/
  | magWfall
  /-- MAG_ASSERT (45_aux_signaling.md R208) -/
  | magAssert
  /-- MAG_HOLD (45_aux_signaling.md R209) -/
  | magHold
  /-- MAG_REL (45_aux_signaling.md R210) -/
  | magRel
  /-- MAG_EI (45_aux_signaling.md R211) -/
  | magEi
  /-- EDGE (44_strobe_responder.md R181) -/
  | edge
  /-- ISR_RUN S (44_strobe_responder.md R184) -/
  | isrRun (S : Byte)
  /-- ISR_CLR (44_strobe_responder.md R185) -/
  | isrClr
  /-- HOSTSEL S (44_strobe_responder.md R188) -/
  | hostsel (S : Byte)
  /-- HOSTMON m (44_strobe_responder.md R189) -/
  | hostmon (m : Bool)
deriving DecidableEq, Repr

end Sys2Proof
end

