-- ==== Sys2Proof/Machine/State.lean ====
section
/-! DEFINITION. The machine's state as plain data, the reasons a step can stop, and the state after
reset (10_state.md; 60_exceptions.md R232; 70_reset_and_hazards.md R260). -/

namespace Sys2Proof.Machine

/-- The idle sequencer's position PHASE, one constructor per 4-bit value (10_state.md R30). -/
inductive Phase where
  /-- 0 P_INIT -/
  | init
  /-- 1 P_POLL -/
  | poll
  /-- 2 P_BUILD -/
  | build
  /-- 3 P_LATCH -/
  | latch
  /-- 4 P_COMPILE -/
  | compile
  /-- 5 P_PUBLISH -/
  | publish
  /-- 6 P_LED -/
  | led
  /-- 7 P_RST -/
  | rst
  /-- 8 P_MAG_DI -/
  | magDi
  /-- 9 P_MAG_RISE -/
  | magRise
  /-- 10 P_MAG_FALL -/
  | magFall
  /-- 11 P_MAG_ASSERT -/
  | magAssert
  /-- 12 P_MAG_HOLD -/
  | magHold
  /-- 13 P_MAG_REL -/
  | magRel
  /-- 14 P_MAG_EI -/
  | magEi
  /-- 15, no name: no rule writes it (60_exceptions.md R234) -/
  | unreachable
deriving DecidableEq, Repr

/-- A diagnostic event (00_scope.md R12, 40_matrix_builder.md R118). -/
inductive Event where
  /-- `Unmapped(c)`: the snapshot held code c, which KEYMAP gives no target -/
  | unmapped (c : Code)
deriving DecidableEq, Repr

/-- Table memory: (address, byte) pairs, addresses strictly rising, no pair with the byte an unlisted
address reads as (20_memory.md R51; DESIGN CHOICE, log entry 12). -/
abbrev Memory := List Host.Cell

/-- Why a step can fault: never. "No operation of the block raises a synchronous exception, and no
step traps"; "The block has no fault bit" (60_exceptions.md R231, R232; DEDUCED, log entry 18). -/
inductive Fault
deriving DecidableEq, Repr

/-- Why there is no step (60_exceptions.md R232). -/
inductive Refusal where
  /-- Raised by a dispatch arm of an instruction without a meaning; no arm raises it. Safe. -/
  | notModelled (mnemonic : String)
  /-- Raised by `fetch`: the scheduled word names no operation (60_exceptions.md R233). Safe. -/
  | reservedWord (w : OpWord)
  /-- Raised by `fetch`: PHASE = 15 (60_exceptions.md R234). Safe. -/
  | unreachablePhase
  /-- Raised by `fetch`: the configuration fails 60_exceptions.md R236. Safe. -/
  | illFormedConfig
  /-- Raised by every meaning whose enabling condition fails: "the state simply has no step by that
  word" (30_encoding.md R79; DESIGN CHOICE, log entry 11). The state stays as it was. Safe. -/
  | notEnabled (i : Instr)
deriving DecidableEq, Repr

/-- The state of the block (10_state.md), with its configuration and, last, the model's own fields. -/
structure State where
  /-- the parameters, written by no operation (00_scope.md R9, 20_memory.md R64; DESIGN CHOICE, log entry 6) -/
  cfg : Config
  /-- TBL, table memory (R20) -/
  tbl : Memory
  /-- ACT, the active slot (R21) -/
  act : Slot
  /-- MODE, joystick mode (R22) -/
  mode : Bool
  /-- PEND, strobe pending (R23) -/
  pend : Bool
  /-- IE, interrupts enabled (R24) -/
  ie : Bool
  /-- INISR, service in progress (R25) -/
  inIsr : Bool
  /-- OUT, the output register (R26) -/
  out : Byte
  /-- LED (R27) -/
  led : Bool
  /-- RST, the reset line register (R27) -/
  rst : Bool
  /-- MAG, the magic line register (R27) -/
  mag : Bool
  /-- PHASE (R30) -/
  phase : Phase
  /-- CIDX, the compile index (R32) -/
  cidx : Byte
  /-- SNAP, the snapshot register (R33) -/
  snap : Snapshot
  /-- M, the scan matrix (R34) -/
  matrix : ScanMatrix
  /-- RSTREQ (R35) -/
  rstReq : Bool
  /-- MAGREQ (R35) -/
  magReq : Bool
  /-- MONPREV; `none` is NONE (R36) -/
  monPrev : Option Bool
  /-- SEL_IN, driven by the host (R37, D27) -/
  selIn : Byte
  /-- MON_IN, driven by the host (R37, D27) -/
  monIn : Bool
  /-- the history of diagnostic events, oldest first (00_scope.md R12) -/
  events : List Event
  /-- MODEL: the USB collaborator's coming snapshots, oldest first (DESIGN CHOICE, log entry 4) -/
  usb : List Snapshot
  /-- MODEL: the operation words to be performed next, oldest first (DESIGN CHOICE, log entry 1) -/
  sched : List OpWord
  /-- MODEL: how many free values have been drawn (DESIGN CHOICE, log entry 4) -/
  draws : Nat
deriving DecidableEq, Repr

/-- The outcome of one step of the block. -/
abbrev Out := Host.Outcome State Fault Refusal

/-- The state after reset of a block with configuration `cfg` (70_reset_and_hazards.md R260). OUT,
SEL_IN and MON_IN are draws at reset (R26, R37), so they are arguments. CIDX, SNAP, M, RSTREQ, MAGREQ
and MONPREV need no reset value (R32 to R36; DESIGN CHOICE, log entry 10). -/
def State.resetDraw (cfg : Config) (out selIn : Byte) (monIn : Bool) : State where
  cfg := cfg
  tbl := []
  act := 0
  mode := false
  pend := false
  ie := false
  inIsr := false
  out := out
  led := false
  rst := false
  mag := false
  phase := .init
  cidx := 0
  snap := ⟨0, List.replicate cfg.nKeys (cfg.code cfg.emptyCode)⟩
  matrix := Vector.replicate 8 0
  rstReq := false
  magReq := false
  monPrev := none
  selIn := selIn
  monIn := monIn
  events := []
  usb := []
  sched := []
  draws := 0

/-- The state after reset under RC, with the draws SEL_IN = 0xFF and MON_IN = 0 with which
95_test_vectors.md L3 starts its programs, and OUT = 0x00 (DESIGN CHOICE, log entries 6, 8, 9). -/
def State.reset : State := State.resetDraw Config.rc 0x00 0xFF false

end Sys2Proof.Machine
end

