-- ==== Sys2Proof/Machine/Ops.lean ====
section
/-! DEFINITION. The named operations over table memory, the matrix and the registers; entering and
leaving an interrupt service; the enabling condition shared by the operations. -/

namespace Sys2Proof.Machine

/-! ### Table memory (20_memory.md R51) -/

/-- What an unlisted address reads as: the reset content of every entry (10_state.md R20, D4). -/
def Memory.unlisted : Byte := 0xFF#8

/-- One byte of table memory. -/
def Memory.read : Memory → Nat → Byte
  | [], _ => Memory.unlisted
  | (a, v) :: rest, k => if a = k then v else Memory.read rest k

/-- The memory without any pair for address k. -/
def Memory.erase (k : Nat) : Memory → Memory
  | [] => []
  | (a, x) :: rest => if a = k then Memory.erase k rest else (a, x) :: Memory.erase k rest

/-- A pair put before the first one with a higher address. -/
def Memory.insert (k : Nat) (v : Byte) : Memory → Memory
  | [] => [(k, v)]
  | (a, x) :: rest => if k < a then (k, v) :: (a, x) :: rest else (a, x) :: Memory.insert k v rest

/-- Writes one byte of table memory; writing what an unlisted address reads as removes its pair. -/
def Memory.write (m : Memory) (k : Nat) (v : Byte) : Memory :=
  if v = Memory.unlisted then Memory.erase k m else Memory.insert k v (Memory.erase k m)

/-- The canonical form above a lower bound: addresses strictly rising from `lo` and inside the 512 of
the table memory, no byte equal to what an unlisted address reads as. -/
def Memory.wfFrom : Nat → Memory → Bool
  | _, [] => true
  | lo, (a, v) :: rest =>
    decide (lo ≤ a) && decide (a < 512) && decide (v ≠ Memory.unlisted)
      && Memory.wfFrom (a + 1) rest

/-- The canonical form of table memory (DESIGN CHOICE, log entry 12). -/
def Memory.wf (m : Memory) : Bool := Memory.wfFrom 0 m

/-- The address `{s, i}` of entry i of slot s (20_memory.md R51). -/
def tableAddr (slot : Slot) (i : Byte) : Addr := slot ++ i

/-- `MemRead(addr, 1)` (20_memory.md R51). -/
def State.memRead (s : State) (addr : Addr) : Byte := Memory.read s.tbl addr.toNat

/-- `MemWrite(addr, 1, v)` (20_memory.md R51). -/
def State.memWrite (s : State) (addr : Addr) (v : Byte) : State :=
  { s with tbl := Memory.write s.tbl addr.toNat v }

/-- The entry `TBL[slot][i]`. -/
def State.entryAt (s : State) (slot : Slot) (i : Byte) : Byte := s.memRead (tableAddr slot i)

/-- The slot that is not active, `1 - ACT` (10_state.md R21). -/
def State.inactive (s : State) : Slot := 1 - s.act

/-! ### Matrix rows (10_state.md R34) -/

/-- Row register r; a row number outside 0 to 7 names no register and reads as 0 (DESIGN CHOICE, log entry 14). -/
def ScanMatrix.row (m : ScanMatrix) (r : Nat) : Byte := m[r]?.getD 0

/-- `setbit((r,b))`: ORs one bit into one row and changes nothing else (40_matrix_builder.md R111). -/
def ScanMatrix.setbit (m : ScanMatrix) (p : Coord) : ScanMatrix :=
  m.setIfInBounds p.r (ScanMatrix.row m p.r ||| (1#8 <<< p.b))

/-- `M[r][b]`. -/
def ScanMatrix.bit (m : ScanMatrix) (p : Coord) : Bool := (ScanMatrix.row m p.r).getLsbD p.b

/-- The all-clear matrix. -/
def ScanMatrix.clear : ScanMatrix := Vector.replicate 8 0

/-! ### Phases (10_state.md R30, 30_encoding.md R76, R77) -/

/-- The 4-bit value of a phase (10_state.md R30). -/
def Phase.code : Phase → BitVec 4
  | .init => 0 | .poll => 1 | .build => 2 | .latch => 3
  | .compile => 4 | .publish => 5 | .led => 6 | .rst => 7
  | .magDi => 8 | .magRise => 9 | .magFall => 10 | .magAssert => 11
  | .magHold => 12 | .magRel => 13 | .magEi => 14 | .unreachable => 15

/-- The phase at which an idle operation is enabled; none for a host or responder operation
(30_encoding.md R76, R77). -/
def phaseOf : Instr → Option Phase
  | .init => some .init
  | .pollData => some .poll
  | .pollNodata => some .poll
  | .build => some .build
  | .latch => some .latch
  | .centry _ => some .compile
  | .publish => some .publish
  | .ledupd => some .led
  | .rstupd => some .rst
  | .magDi => some .magDi
  | .magWrise => some .magRise
  | .magWfall => some .magFall
  | .magAssert => some .magAssert
  | .magHold => some .magHold
  | .magRel => some .magRel
  | .magEi => some .magEi
  | .edge => none
  | .isrRun _ => none
  | .isrClr => none
  | .hostsel _ => none
  | .hostmon _ => none

/-- The idle sequencer may take the operation of phase p: PHASE is p and no service is in progress
(30_encoding.md R79, 44_strobe_responder.md R186). -/
def State.idleAt (s : State) (p : Phase) : Bool := decide (s.phase = p) && !s.inIsr

/-- The responder may start a service (60_exceptions.md R237). -/
def State.canServe (s : State) : Bool := s.ie && s.pend && !s.inIsr

/-- 30_encoding.md R79: whether a well-formed word names a step of the state. -/
def enabled (i : Instr) (s : State) : Bool :=
  match i with
  | .init => s.idleAt .init
  | .pollData => s.idleAt .poll
  | .pollNodata => s.idleAt .poll
  | .build => s.idleAt .build
  | .latch => s.idleAt .latch
  | .centry S => s.idleAt .compile && decide (S = s.cidx)
  | .publish => s.idleAt .publish
  | .ledupd => s.idleAt .led
  | .rstupd => s.idleAt .rst
  | .magDi => s.idleAt .magDi
  | .magWrise => s.idleAt .magRise
  | .magWfall => s.idleAt .magFall
  | .magAssert => s.idleAt .magAssert
  | .magHold => s.idleAt .magHold
  | .magRel => s.idleAt .magRel
  | .magEi => s.idleAt .magEi
  | .edge => true
  | .isrRun S => s.canServe && decide (S = s.selIn)
  | .isrClr => s.inIsr
  | .hostsel _ => true
  | .hostmon _ => true

/-- The step of operation i to t where its enabling condition holds, no step where it does not
(30_encoding.md R79). -/
def whenever (cond : Bool) (i : Instr) (t : State) : Out :=
  if cond then .next t else .refused (.notEnabled i)

/-- The step of idle operation i, enabled at phase p, to t. -/
def idleStep (i : Instr) (p : Phase) (s t : State) : Out := whenever (s.idleAt p) i t

/-! ### Reset (70_reset_and_hazards.md R260) -/

/-- A platform reset during a run: every register takes its reset value, the event history is empty, and
OUT, SEL_IN and MON_IN are draws. The configuration is no register, and what the environment will do is
not the block's. No operation word names it (DESIGN CHOICE, log entry 19). -/
def State.platformReset (s : State) (out selIn : Byte) (monIn : Bool) : State :=
  { State.resetDraw s.cfg out selIn monIn with usb := s.usb, sched := s.sched, draws := s.draws }

/-! ### The interrupt (60_exceptions.md R237 to R240) -/

/-- Interrupt entry (60_exceptions.md R239): saves nothing and changes INISR and OUT alone; OUT gets
the active table's entry for the select lines (44_strobe_responder.md R184). -/
def State.enterService (s : State) : State :=
  { s with out := s.entryAt s.act s.selIn, inIsr := true }

/-- Interrupt return (60_exceptions.md R240): restores nothing, clears PEND and INISR. -/
def State.leaveService (s : State) : State :=
  { s with pend := false, inIsr := false }

end Sys2Proof.Machine
end

