-- ==== Sys2Proof/Machine/Operands.lean ====
section
/-! DEFINITION. Where the operations' operands come from: the key map, modifiers and joystick map, the
snapshot drawn by a POLL, the matrix builder's fold, and the combinational response function. -/

namespace Sys2Proof.Machine

/-! ### Configuration lookups (40_matrix_builder.md R102 to R105) -/

/-- `KEYMAP(c)` (40_matrix_builder.md R102, 20_memory.md R52). -/
def keyResult (cfg : Config) (c : Code) : KeyResult := (cfg.keymap.lookup c).getD .noMap

/-- `JOYMAP(c)` where c is in JOY_KEYS (40_matrix_builder.md R105). -/
def joyTarget (cfg : Config) (c : Code) : Option Coord := cfg.joymap.lookup c

/-- `MODPOS(i)`: the coordinates modifier flag i resolves to (40_matrix_builder.md R104, D13). -/
def modPos (cfg : Config) (i : Nat) : List Coord :=
  if i = 0 ∨ i = 4 then [cfg.symPos]
  else if i = 1 ∨ i = 5 then [cfg.capsPos]
  else if i = 2 ∨ i = 6 then [cfg.capsPos, cfg.symPos]
  else if i = 3 ∨ i = 7 then [cfg.guiPos]
  else []

/-! ### The USB collaborator's answer (40_matrix_builder.md R100) -/

/-- A snapshot with exactly N_KEYS slots of CODE_WIDTH bits: longer lists are cut, shorter ones get empty
slots, wider codes keep their low bits; a well-formed one is unchanged (DESIGN CHOICE, log entry 5). -/
def fitSnapshot (cfg : Config) (sn : Snapshot) : Snapshot :=
  { sn with codes := (sn.codes.take cfg.nKeys
      ++ List.replicate (cfg.nKeys - sn.codes.length) cfg.emptyCode).map cfg.code }

/-- The n-th free snapshot (DESIGN CHOICE, log entry 4). -/
def freeSnapshot (cfg : Config) (n : Nat) : Snapshot :=
  ⟨Config.freeMods n, (List.range cfg.nKeys).map (fun j => cfg.code (Config.freeCode n j))⟩

/-- `draw ans`, here a snapshot: the collaborator's next one where State holds it, a free one where it
does not. -/
def State.answer (s : State) : Snapshot :=
  match s.usb with
  | sn :: _ => fitSnapshot s.cfg sn
  | [] => freeSnapshot s.cfg s.draws

/-- The state after a POLL with data: the answer in SNAP, on to P_BUILD, the state's own snapshot used up
or a free value drawn (40_matrix_builder.md R100). -/
def State.polled (s : State) : State :=
  { s with
    snap := s.answer
    phase := .build
    usb := s.usb.tail
    draws := if s.usb = [] then s.draws + 1 else s.draws }

/-! ### The matrix builder (40_matrix_builder.md R110 to R118) -/

/-- What BUILD accumulates: M, RSTREQ, MAGREQ and U, the unmapped codes in increasing order. -/
structure Built where
  matrix : ScanMatrix
  rstReq : Bool
  magReq : Bool
  unmapped : List Code
deriving DecidableEq, Repr

/-- `U ∪ {c}`, U held in increasing order without repeats (40_matrix_builder.md R118). -/
def insertCode (c : Code) : List Code → List Code
  | [] => [c]
  | d :: rest =>
    if c < d then c :: d :: rest
    else if c = d then d :: rest
    else d :: insertCode c rest

/-- `setbit` of each coordinate of a list. -/
def setbits (m : ScanMatrix) (ps : List Coord) : ScanMatrix := ps.foldl ScanMatrix.setbit m

/-- The coordinates of the forced flags of a key-map result (40_matrix_builder.md R114). -/
def forcedPos (cfg : Config) (caps sym : Bool) : List Coord :=
  (if caps then [cfg.capsPos] else []) ++ (if sym then [cfg.symPos] else [])

/-- The matrix the pressed modifiers give (40_matrix_builder.md R110, "every pressed modifier" first). -/
def buildMods (cfg : Config) (mods : Byte) : ScanMatrix :=
  (List.range 8).foldl
    (fun m i => if mods.getLsbD i then setbits m (modPos cfg i) else m) ScanMatrix.clear

/-- What a key-map result does (40_matrix_builder.md R110, R114, R117, R118). -/
def applyResult (cfg : Config) (acc : Built) (c : Code) : KeyResult → Built
  | .noMap => { acc with unmapped := insertCode c acc.unmapped }
  | .resetK => { acc with rstReq := true }
  | .magicK => { acc with magReq := true }
  | .key p caps sym => { acc with matrix := setbits acc.matrix (p :: forcedPos cfg caps sym) }

/-- The joystick target that overrides code c: only in joystick mode (40_matrix_builder.md R113). -/
def joyOverride (cfg : Config) (mode : Bool) (c : Code) : Option Coord :=
  if mode then joyTarget cfg c else none

/-- One pressed regular code (40_matrix_builder.md R110, R113, R115). -/
def applyCode (cfg : Config) (mode : Bool) (acc : Built) (c : Code) : Built :=
  if c = cfg.emptyCode then acc
  else
    match joyOverride cfg mode c with
    | some p => { acc with matrix := ScanMatrix.setbit acc.matrix p }
    | none => applyResult cfg acc c (keyResult cfg c)

/-- BUILD's result: a function of SNAP, MODE and the configuration (40_matrix_builder.md R110, R116). -/
def buildOf (cfg : Config) (mode : Bool) (sn : Snapshot) : Built :=
  sn.codes.foldl (applyCode cfg mode) ⟨buildMods cfg sn.mods, false, false, []⟩

/-! ### The response function (42_table_compiler.md R150) -/

/-- `sel(S)`, the row-select decoder: the rows whose select bit is 0. -/
def sel (S : Byte) : List Nat := (List.range 8).filter (fun r => !S.getLsbD r)

/-- `acc(M, S)`, the scan multiplexer: the OR of the selected rows. -/
def acc (m : ScanMatrix) (S : Byte) : Byte := (sel S).foldl (fun v r => v ||| ScanMatrix.row m r) 0

/-- `entry(M, S)`: the complement, active low. -/
def entry (m : ScanMatrix) (S : Byte) : Byte := ~~~ acc m S

end Sys2Proof.Machine
end

