-- ==== Sys2Proof/Machine/Flags.lean ====
section
/-! DEFINITION. Every flag computation of the spec: MODE, LED, RSTREQ on no data, and the edges of the
monitor input. -/

namespace Sys2Proof.Machine

/-- MODE after LATCH: deactivate wins, then activate, else unchanged (41_mode_latch.md R140 to R142). -/
def latchedMode (cfg : Config) (m : ScanMatrix) (mode : Bool) : Bool :=
  if ScanMatrix.bit m cfg.modeDeactPos then false
  else if ScanMatrix.bit m cfg.modeActPos then true
  else mode

/-- LED from the active table's entry 0x00 (45_aux_signaling.md R201; 90_conflicts.md C1). -/
def ledOf (e : Byte) : Bool := decide (e ≠ 0xFF#8)

/-- RSTREQ after a POLL with no data (40_matrix_builder.md R101, D18). -/
def nodataRstReq (cfg : Config) (rst : Bool) : Bool :=
  match cfg.resetOnNodata with
  | .driveLow => false
  | .hold => rst

/-- A rising edge of MON_IN between two samples (45_aux_signaling.md R206). -/
def sawRise (prev : Option Bool) (m : Bool) : Bool := decide (prev = some false) && m

/-- A falling edge of MON_IN between two samples (45_aux_signaling.md R207). -/
def sawFall (prev : Option Bool) (m : Bool) : Bool := decide (prev = some true) && !m

end Sys2Proof.Machine
end

