-- ==== Sys2Proof/Machine/Boot.lean ====
section
/-! DEFINITION. The boot operation INIT (70_reset_and_hazards.md R262). -/

namespace Sys2Proof.Machine

/-- INIT (70_reset_and_hazards.md R262). -/
def execInit (s : State) : Out :=
  idleStep .init .init s { s with ie := true, phase := .poll }

end Sys2Proof.Machine
end

