-- ==== Sys2Proof/Machine/Builder.lean ====
section
/-! DEFINITION. The poll and matrix builder operations (40_matrix_builder.md). -/

namespace Sys2Proof.Machine

/-- POLL with data (40_matrix_builder.md R100). -/
def execPollData (s : State) : Out :=
  idleStep .pollData .poll s s.polled

/-- POLL with no data (40_matrix_builder.md R101). -/
def execPollNodata (s : State) : Out :=
  idleStep .pollNodata .poll s
    { s with rstReq := nodataRstReq s.cfg s.rst, magReq := false, phase := .rst }

/-- The state after a BUILD with result b: M and the requests in their registers, the unmapped codes
reported in increasing order, on to P_LATCH (40_matrix_builder.md R110, R118). -/
def State.withBuilt (s : State) (b : Built) : State :=
  { s with
    matrix := b.matrix
    rstReq := b.rstReq
    magReq := b.magReq
    events := s.events ++ b.unmapped.map Event.unmapped
    phase := .latch }

/-- BUILD (40_matrix_builder.md R110). -/
def execBuild (s : State) : Out :=
  idleStep .build .build s (s.withBuilt (buildOf s.cfg s.mode s.snap))

end Sys2Proof.Machine
end

