-- ==== Sys2Proof/Machine/Compiler.lean ====
section
/-! DEFINITION. The response table compiler (42_table_compiler.md). -/

namespace Sys2Proof.Machine

/-- The sequencer after entry S is written: on to P_PUBLISH at the last entry, else CIDX advances
(42_table_compiler.md R152, R157). -/
def State.compileAdvance (s : State) (S : Byte) : State :=
  { s with
    phase := if S = 0xFF#8 then .publish else s.phase
    cidx := if S = 0xFF#8 then s.cidx else S + 1 }

/-- CENTRY S (42_table_compiler.md R152). -/
def execCentry (S : Byte) (s : State) : Out :=
  whenever (s.idleAt .compile && decide (S = s.cidx)) (.centry S)
    ((s.memWrite (tableAddr s.inactive S) (entry s.matrix S)).compileAdvance S)

end Sys2Proof.Machine
end

