-- ==== Sys2Proof/Machine/Latch.lean ====
section
/-! DEFINITION. The mode-switch sticky latch (41_mode_latch.md). -/

namespace Sys2Proof.Machine

/-- LATCH (41_mode_latch.md R140). -/
def execLatch (s : State) : Out :=
  idleStep .latch .latch s
    { s with mode := latchedMode s.cfg s.matrix s.mode, cidx := 0, phase := .compile }

end Sys2Proof.Machine
end

