-- ==== Sys2Proof/Machine/Publisher.lean ====
section
/-! DEFINITION. The double-buffer publisher (43_publication.md). -/

namespace Sys2Proof.Machine

/-- PUBLISH (43_publication.md R170). -/
def execPublish (s : State) : Out :=
  idleStep .publish .publish s { s with act := s.inactive, phase := .led }

end Sys2Proof.Machine
end

