-- ==== Sys2Proof/Machine/Responder.lean ====
section
/-! DEFINITION. The strobe responder and the host events (44_strobe_responder.md). -/

namespace Sys2Proof.Machine

/-- EDGE (44_strobe_responder.md R181). -/
def execEdge (s : State) : Out := .next { s with pend := true }

/-- HOSTSEL S (44_strobe_responder.md R188). -/
def execHostsel (S : Byte) (s : State) : Out := .next { s with selIn := S }

/-- HOSTMON m (44_strobe_responder.md R189). -/
def execHostmon (m : Bool) (s : State) : Out := .next { s with monIn := m }

/-- ISR_RUN S (44_strobe_responder.md R184): interrupt entry. -/
def execIsrRun (S : Byte) (s : State) : Out :=
  whenever (s.canServe && decide (S = s.selIn)) (.isrRun S) s.enterService

/-- ISR_CLR (44_strobe_responder.md R185): interrupt return. -/
def execIsrClr (s : State) : Out := whenever s.inIsr .isrClr s.leaveService

end Sys2Proof.Machine
end

