-- ==== Sys2Proof/Machine/Signals.lean ====
section
/-! DEFINITION. Auxiliary signaling: the LED, the reset line and the magic-button handshake
(45_aux_signaling.md). -/

namespace Sys2Proof.Machine

/-- LEDUPD (45_aux_signaling.md R201). -/
def execLedupd (s : State) : Out :=
  idleStep .ledupd .led s { s with led := ledOf (s.entryAt s.act 0x00#8), phase := .rst }

/-- RSTUPD (45_aux_signaling.md R203). -/
def execRstupd (s : State) : Out :=
  idleStep .rstupd .rst s
    { s with rst := s.rstReq, phase := if s.magReq then .magDi else .poll }

/-- MAG_DI (45_aux_signaling.md R205). -/
def execMagDi (s : State) : Out :=
  idleStep .magDi .magDi s { s with ie := false, monPrev := none, phase := .magRise }

/-- MAG_WRISE (45_aux_signaling.md R206). -/
def execMagWrise (s : State) : Out :=
  idleStep .magWrise .magRise s
    { s with
      phase := if sawRise s.monPrev s.monIn then .magFall else .magRise
      monPrev := some s.monIn }

/-- MAG_WFALL (45_aux_signaling.md R207). -/
def execMagWfall (s : State) : Out :=
  idleStep .magWfall .magFall s
    { s with
      phase := if sawFall s.monPrev s.monIn then .magAssert else .magFall
      monPrev := some s.monIn }

/-- MAG_ASSERT (45_aux_signaling.md R208). -/
def execMagAssert (s : State) : Out :=
  idleStep .magAssert .magAssert s { s with mag := true, phase := .magHold }

/-- MAG_HOLD (45_aux_signaling.md R209): the delay is one step; no register but PHASE changes. -/
def execMagHold (s : State) : Out :=
  idleStep .magHold .magHold s { s with phase := .magRel }

/-- MAG_REL (45_aux_signaling.md R210). -/
def execMagRel (s : State) : Out :=
  idleStep .magRel .magRel s { s with mag := false, phase := .magEi }

/-- MAG_EI (45_aux_signaling.md R211). -/
def execMagEi (s : State) : Out :=
  idleStep .magEi .magEi s { s with ie := true, phase := .poll }

end Sys2Proof.Machine
end

