-- ==== Sys2Proof/Machine/Dispatch.lean ====
section
/-! DEFINITION. The dispatch: one arm per operation of spec/opcode_table.json, in the table's order. -/

namespace Sys2Proof.Machine

def exec (i : Instr) (s : State) : Host.Outcome State Fault Refusal :=
  match i with
  | .init => Sys2Proof.Machine.execInit s
  | .pollData => Sys2Proof.Machine.execPollData s
  | .pollNodata => Sys2Proof.Machine.execPollNodata s
  | .build => Sys2Proof.Machine.execBuild s
  | .latch => Sys2Proof.Machine.execLatch s
  | .centry S => Sys2Proof.Machine.execCentry S s
  | .publish => Sys2Proof.Machine.execPublish s
  | .ledupd => Sys2Proof.Machine.execLedupd s
  | .rstupd => Sys2Proof.Machine.execRstupd s
  | .magDi => Sys2Proof.Machine.execMagDi s
  | .magWrise => Sys2Proof.Machine.execMagWrise s
  | .magWfall => Sys2Proof.Machine.execMagWfall s
  | .magAssert => Sys2Proof.Machine.execMagAssert s
  | .magHold => Sys2Proof.Machine.execMagHold s
  | .magRel => Sys2Proof.Machine.execMagRel s
  | .magEi => Sys2Proof.Machine.execMagEi s
  | .edge => Sys2Proof.Machine.execEdge s
  | .isrRun S => Sys2Proof.Machine.execIsrRun S s
  | .isrClr => Sys2Proof.Machine.execIsrClr s
  | .hostsel S => Sys2Proof.Machine.execHostsel S s
  | .hostmon m => Sys2Proof.Machine.execHostmon m s

end Sys2Proof.Machine
end

