-- ==== Sys2Proof/Decode.lean ====
section
/-! DEFINITION. The decoder of operation words, total on all 65536 of them, and the encoder
(30_encoding.md R75 to R81; spec/opcode_table.json). -/

namespace Sys2Proof

/-- `op = OW[15:12]` (30_encoding.md R75). -/
def OpWord.op (w : OpWord) : BitVec 4 := w.extractLsb' 12 4

/-- `imm8 = OW[7:0]`, unsigned (30_encoding.md R75, R78). -/
def OpWord.imm8 (w : OpWord) : Byte := w.extractLsb' 0 8

/-- The one-bit flag `OW[8]`: d of POLL, m of HOSTMON (30_encoding.md R78). -/
def OpWord.flag (w : OpWord) : Bool := w.getLsbD 8

/-- One row of spec/opcode_table.json: a word w is the row's when `(w & mask) = value`. -/
structure OpRow where
  mask : OpWord
  value : OpWord
  /-- the operation, its operands taken from the word -/
  make : OpWord → Instr

/-- spec/opcode_table.json, in the table's order. -/
def opTable : List OpRow :=
  [ ⟨0xFFFF, 0x0000, fun _ => .init⟩,
    ⟨0xFFFF, 0x1100, fun _ => .pollData⟩,
    ⟨0xFFFF, 0x1000, fun _ => .pollNodata⟩,
    ⟨0xFFFF, 0x2000, fun _ => .build⟩,
    ⟨0xFFFF, 0x3000, fun _ => .latch⟩,
    ⟨0xFF00, 0x4000, fun w => .centry (OpWord.imm8 w)⟩,
    ⟨0xFFFF, 0x5000, fun _ => .publish⟩,
    ⟨0xFFFF, 0x6000, fun _ => .ledupd⟩,
    ⟨0xFFFF, 0x7000, fun _ => .rstupd⟩,
    ⟨0xFFFF, 0x8000, fun _ => .magDi⟩,
    ⟨0xFFFF, 0x8100, fun _ => .magWrise⟩ ] ++
  [ ⟨0xFFFF, 0x8200, fun _ => .magWfall⟩,
    ⟨0xFFFF, 0x8300, fun _ => .magAssert⟩,
    ⟨0xFFFF, 0x8400, fun _ => .magHold⟩,
    ⟨0xFFFF, 0x8500, fun _ => .magRel⟩,
    ⟨0xFFFF, 0x8600, fun _ => .magEi⟩,
    ⟨0xFFFF, 0x9000, fun _ => .edge⟩,
    ⟨0xFF00, 0xA000, fun w => .isrRun (OpWord.imm8 w)⟩,
    ⟨0xFFFF, 0xB000, fun _ => .isrClr⟩,
    ⟨0xFF00, 0xC000, fun w => .hostsel (OpWord.imm8 w)⟩,
    ⟨0xFEFF, 0xD000, fun w => .hostmon (OpWord.flag w)⟩ ]

/-- What the decoder says of a word (30_encoding.md R80, R81). -/
inductive Verdict where
  /-- the word names this operation -/
  | op (i : Instr)
  /-- the word is reserved: it names no operation -/
  | reserved
deriving DecidableEq, Repr

/-- The verdict as an optional operation. -/
def Verdict.toOption : Verdict → Option Instr
  | .op i => some i
  | .reserved => none

/-- 30_encoding.md R81: op 0xE and 0xF are reserved; otherwise the matching row of the table names the
word; a word no row matches is reserved. -/
def decode (w : OpWord) : Verdict :=
  if OpWord.op w = 0xE#4 ∨ OpWord.op w = 0xF#4 then .reserved
  else
    match opTable.find? (fun row => w &&& row.mask == row.value) with
    | some row => .op (row.make w)
    | none => .reserved

/-- The decoder on a word numbered as spec/opcode_table.json numbers it: every row is one 16-bit word
(30_encoding.md R75: "there are no other lengths"). -/
def decodeTableWord (nbits w : Nat) : Option Instr :=
  if nbits ≤ 16 ∧ w < 2 ^ 16 then (decode (BitVec.ofNat 16 w)).toOption else none

/-- A word from its three fields (30_encoding.md R75). -/
def OpWord.pack (op sub : BitVec 4) (imm8 : Byte) : OpWord := op ++ sub ++ imm8

/-- The encoder: the word of an operation, from the op map and the MAG_* sub-operations
(30_encoding.md R76, R77, R78). -/
def encode : Instr → OpWord
  | .init => OpWord.pack 0x0 0 0
  | .pollData => OpWord.pack 0x1 1 0
  | .pollNodata => OpWord.pack 0x1 0 0
  | .build => OpWord.pack 0x2 0 0
  | .latch => OpWord.pack 0x3 0 0
  | .centry S => OpWord.pack 0x4 0 S
  | .publish => OpWord.pack 0x5 0 0
  | .ledupd => OpWord.pack 0x6 0 0
  | .rstupd => OpWord.pack 0x7 0 0
  | .magDi => OpWord.pack 0x8 0 0
  | .magWrise => OpWord.pack 0x8 1 0
  | .magWfall => OpWord.pack 0x8 2 0
  | .magAssert => OpWord.pack 0x8 3 0
  | .magHold => OpWord.pack 0x8 4 0
  | .magRel => OpWord.pack 0x8 5 0
  | .magEi => OpWord.pack 0x8 6 0
  | .edge => OpWord.pack 0x9 0 0
  | .isrRun S => OpWord.pack 0xA 0 S
  | .isrClr => OpWord.pack 0xB 0 0
  | .hostsel S => OpWord.pack 0xC 0 S
  | .hostmon m => OpWord.pack 0xD (if m then 1 else 0) 0

end Sys2Proof
end

