-- ==== Sys2Proof/Machine/ConfigCheck.lean ====
section
/-! DEFINITION. The checks of a configuration (60_exceptions.md R236; D29). -/

namespace Sys2Proof

/-- A real key's position: row 0 to 7, data bit 0 to 4. -/
def Coord.real (p : Coord) : Bool := decide (p.r ≤ 7) && decide (p.b ≤ 4)

/-- A coordinate of the matrix: row 0 to 7, data bit 0 to 7 (30_encoding.md R73). -/
def Coord.inMatrix (p : Coord) : Bool := decide (p.r ≤ 7) && decide (p.b ≤ 7)

/-- A coordinate outside the real keys' data bits: bit 5 to 7 (90_conflicts.md C3). -/
def Coord.virtual (p : Coord) : Bool := Coord.inMatrix p && decide (5 ≤ p.b)

/-- A key-map result names a coordinate of the matrix if it names one (30_encoding.md R73). -/
def KeyResult.inMatrix : KeyResult → Bool
  | .key p _ _ => Coord.inMatrix p
  | .noMap => true
  | .resetK => true
  | .magicK => true

/-- R236 (a), of one key-map result. -/
def Config.resultOk (c : Config) : KeyResult → Bool
  | .key p caps sym =>
    decide (p.r ≤ 7) &&
      (decide (p.b ≤ 4)
        || (decide (p = c.modeActPos) || decide (p = c.modeDeactPos)) && !caps && !sym)
  | .noMap => true
  | .resetK => true
  | .magicK => true

/-- R236 (a), with (f): at EMPTY_CODE any key-map result will do (DEDUCED, log entry 22). -/
def Config.checkA (c : Config) : Bool :=
  c.keymap.all (fun e => KeyResult.inMatrix (Machine.keyResult c e.1)
    && (decide (e.1 = c.emptyCode) || Config.resultOk c (Machine.keyResult c e.1)))

/-- R236 (b). -/
def Config.checkB (c : Config) : Bool :=
  decide (Machine.keyResult c c.modeActCode = .key c.modeActPos false false)
    && decide (Machine.keyResult c c.modeDeactCode = .key c.modeDeactPos false false)
    && decide (Machine.keyResult c c.resetCode = .resetK)
    && decide (Machine.keyResult c c.magicCode = .magicK)
    && decide [c.modeActCode, c.modeDeactCode, c.resetCode, c.magicCode].Nodup

/-- R236 (c). -/
def Config.checkC (c : Config) : Bool :=
  decide (c.modeActPos ≠ c.modeDeactPos) && Coord.virtual c.modeActPos
    && Coord.virtual c.modeDeactPos

/-- R236 (d). -/
def Config.checkD (c : Config) : Bool :=
  Coord.real c.capsPos && Coord.real c.symPos && Coord.real c.guiPos
    && c.joymap.all (fun e => Coord.real e.2)

/-- R236 (e): JOY_KEYS is a set of 4 codes (40_matrix_builder.md R105) off the special ones. -/
def Config.checkE (c : Config) : Bool :=
  decide (c.joymap.length = 4) && decide (c.joymap.map Prod.fst).Nodup
    && c.joymap.all (fun e =>
      decide (e.1 ∉ [c.emptyCode, c.modeActCode, c.modeDeactCode, c.resetCode, c.magicCode]))

/-- R236 (g). -/
def Config.checkG (c : Config) : Bool := decide (1 ≤ c.nKeys)

/-- Every code of the configuration has CODE_WIDTH bits: the legal values of 00_scope.md R9's codes
(20_memory.md R50, 40_matrix_builder.md R102; DESIGN CHOICE, log entry 7). -/
def Config.checkWidth (c : Config) : Bool :=
  ([c.emptyCode, c.modeActCode, c.modeDeactCode, c.resetCode, c.magicCode]
    ++ c.keymap.map Prod.fst ++ c.joymap.map Prod.fst).all (fun k => decide (k < 2 ^ c.codeWidth))

/-- A well-formed configuration (60_exceptions.md R236); (f) asks nothing. -/
def Config.wf (c : Config) : Bool :=
  Config.checkA c && Config.checkB c && Config.checkC c && Config.checkD c && Config.checkE c
    && Config.checkG c && Config.checkWidth c

end Sys2Proof
end

