-- ==== Sys2Proof/Machine/Fetch.lean ====
section
/-! DEFINITION. Which operation the next step takes. The spec lets any enabled step of any agent come
next (60_exceptions.md R238); the choice is data, the scheduled words, and a free value where none is
scheduled (DESIGN CHOICE, log entries 1, 2). -/

namespace Sys2Proof.Machine

/-- The idle operation of a phase (10_state.md R30). At P_POLL the collaborator answers with a snapshot
when the state holds one and with no data when it does not. At the value 15 there is none. -/
def State.idleOp (s : State) : Option Instr :=
  match s.phase with
  | .init => some .init
  | .poll => if s.usb = [] then some .pollNodata else some .pollData
  | .build => some .build
  | .latch => some .latch
  | .compile => some (.centry s.cidx)
  | .publish => some .publish
  | .led => some .ledupd
  | .rst => some .rstupd
  | .magDi => some .magDi
  | .magRise => some .magWrise
  | .magFall => some .magWfall
  | .magAssert => some .magAssert
  | .magHold => some .magHold
  | .magRel => some .magRel
  | .magEi => some .magEi
  | .unreachable => none

/-- The operation a free word names, where it names one that is enabled. -/
def State.freeOp (s : State) : Option Instr :=
  match decode (Config.freeWord s.draws) with
  | .op i => if enabled i s then some i else none
  | .reserved => none

/-- The step taken when nothing is scheduled: the free one, or else the block's own, the end of the
service in progress or the idle operation of PHASE (DESIGN CHOICE, log entry 2). -/
def State.unscheduled (s : State) : Option Instr :=
  match s.freeOp with
  | some i => some i
  | none => if s.inIsr then some .isrClr else s.idleOp

/-- What the model refuses before any step: an ill-formed configuration (60_exceptions.md R236) and
PHASE = 15 (60_exceptions.md R234). -/
def State.refusal (s : State) : Option Refusal :=
  if s.cfg.wf = false then some .illFormedConfig
  else if s.phase = .unreachable then some .unreachablePhase
  else none

/-- The next step's operation, with the state it is taken in. -/
def fetch (s : State) : Except Refusal (Instr × State) :=
  match s.refusal with
  | some r => .error r
  | none =>
    match s.sched with
    | w :: rest =>
      match decode w with
      | .op i => .ok (i, { s with sched := rest })
      | .reserved => .error (.reservedWord w)
    | [] =>
      match s.unscheduled with
      | some i => .ok (i, { s with draws := s.draws + 1 })
      | none => .error .unreachablePhase

/-- What must hold of a state for operation i to be the next step: PHASE at the operation's phase and no
service in progress, CIDX or SEL_IN equal to the word's operand, a strobe to serve, or a service to end
(30_encoding.md R76, R78, R79). -/
def State.readyFor (s : State) (i : Instr) : State :=
  match i with
  | .centry S => { s with phase := .compile, inIsr := false, cidx := S }
  | .isrRun S => { s with ie := true, pend := true, inIsr := false, selIn := S }
  | .isrClr => { s with inIsr := true }
  | _ =>
    match phaseOf i with
    | some p => { s with phase := p, inIsr := false }
    | none => s

/-- The state in which word w is the next to be performed, and its operation, if it names one, is
enabled (DESIGN CHOICE, log entry 3). -/
def State.place (s : State) (w : OpWord) : State :=
  match decode w with
  | .op i => { s.readyFor i with sched := w :: s.sched }
  | .reserved => { s with sched := w :: s.sched }

end Sys2Proof.Machine
end

