-- ==== Sys2Proof/Machine/Assembler.lean ====
section
/-! DEFINITION. The assembler syntax of an operation word (30_encoding.md R82): the mnemonic, then its
operand. Comments and the snapshot written after a POLL with data are the trace's, not the word's. -/

namespace Sys2Proof

/-- The hexadecimal digits, as R82 writes them. -/
def hexDigits : List Char :=
  ['0', '1', '2', '3', '4', '5', '6', '7', '8', '9', 'A', 'B', 'C', 'D', 'E', 'F']

/-- A select pattern as a hexadecimal byte, `0x00` to `0xFF`. -/
def hexByte (v : Byte) : List Char :=
  ['0', 'x', hexDigits.getD (v.toNat / 16) '0', hexDigits.getD (v.toNat % 16) '0']

/-- The mnemonic and the operand of an operation. -/
def asmParts : Instr → String × Option (List Char)
  | .init => ("INIT", none)
  | .pollData => ("POLL", some ['d', 'a', 't', 'a'])
  | .pollNodata => ("POLL", some ['n', 'o', 'd', 'a', 't', 'a'])
  | .build => ("BUILD", none)
  | .latch => ("LATCH", none)
  | .centry S => ("CENTRY", some (hexByte S))
  | .publish => ("PUBLISH", none)
  | .ledupd => ("LEDUPD", none)
  | .rstupd => ("RSTUPD", none)
  | .magDi => ("MAG_DI", none)
  | .magWrise => ("MAG_WRISE", none)
  | .magWfall => ("MAG_WFALL", none)
  | .magAssert => ("MAG_ASSERT", none)
  | .magHold => ("MAG_HOLD", none)
  | .magRel => ("MAG_REL", none)
  | .magEi => ("MAG_EI", none)
  | .edge => ("EDGE", none)
  | .isrRun S => ("ISR_RUN", some (hexByte S))
  | .isrClr => ("ISR_CLR", none)
  | .hostsel S => ("HOSTSEL", some (hexByte S))
  | .hostmon m => ("HOSTMON", some [if m then '1' else '0'])

/-- The line of an operation. -/
def assemblyLine (i : Instr) : String :=
  match asmParts i with
  | (mnemonic, some operand) => mnemonic ++ " " ++ String.ofList operand
  | (mnemonic, none) => mnemonic

/-- The byte written as a hexadecimal byte. -/
def parseByte : List Char → Option Byte
  | ['0', 'x', h, l] =>
    match hexDigits.idxOf? h, hexDigits.idxOf? l with
    | some a, some b => some (BitVec.ofNat 8 (16 * a + b))
    | _, _ => none
  | _ => none

/-- The operations whose operand, if any, is not a byte. -/
def plainOps : List Instr :=
  [ .init, .pollData, .pollNodata, .build, .latch, .publish, .ledupd, .rstupd, .magDi, .magWrise,
    .magWfall, .magAssert, .magHold, .magRel, .magEi, .edge, .isrClr, .hostmon false, .hostmon true ]

/-- The operation of a line split into mnemonic and operand; none for a line of no operation. -/
def assemble (mnemonic : String) (operand : Option (List Char)) : Option Instr :=
  match operand.bind parseByte with
  | some S =>
    [Instr.centry S, Instr.isrRun S, Instr.hostsel S].find? (fun i => (asmParts i).1 == mnemonic)
  | none => plainOps.find? (fun i => asmParts i == (mnemonic, operand))

end Sys2Proof
end

