-- ==== Sys2Proof/Machine/Ports.lean ====
section
/-! DEFINITION. The output ports as functions of the state, and what an active strobe edge is
(10_state.md R38; 44_strobe_responder.md R180). -/

namespace Sys2Proof.Machine

/-- The level of a line that is at `active` when its register is 1. -/
def lineLevel (active reg : Bool) : Bool := if reg then active else !active

/-- DATA_OUT: OUT, continuously (10_state.md R26, R38; D26). -/
def State.dataOut (s : State) : Byte := s.out

/-- LED_OUT (45_aux_signaling.md R202). -/
def State.ledOut (s : State) : Bool := lineLevel s.cfg.ledActiveLevel s.led

/-- RESET_OUT: the level itself (10_state.md R27). -/
def State.resetOut (s : State) : Bool := s.rst

/-- MAGIC_OUT (45_aux_signaling.md R208, R210). -/
def State.magicOut (s : State) : Bool := lineLevel s.cfg.magActiveLevel s.mag

/-- Whether a change of STROBE_IN from `old` to `new` is an active edge, which the run shows as one
EDGE (44_strobe_responder.md R180). -/
def State.strobeEdgeSeen (s : State) (old new : Bool) : Bool :=
  match s.cfg.strobeEdge with
  | .rising => !old && new
  | .falling => old && !new

end Sys2Proof.Machine
end

