-- ==== Sys2Proof/Machine/Pseudo.lean ====
section
/-! DEFINITION. The pseudo-operations, which are not steps but abbreviations of operation sequences
(30_encoding.md R83), and performing a sequence with no other step between its operations. -/

namespace Sys2Proof.Machine

/-- COMPILE: CENTRY 0x00 to CENTRY 0xFF, in increasing S. -/
def pseudoCompile : List Instr := (List.range 256).map (fun n => .centry (BitVec.ofNat 8 n))

/-- SERVICE S. -/
def pseudoService (S : Byte) : List Instr := [.isrRun S, .isrClr]

/-- STROBE S: the host drives S, then strobes. -/
def pseudoStrobe (S : Byte) : List Instr := [.hostsel S, .edge]

/-- MAGIC: one MAG_WRISE and `rises` more, one MAG_WFALL and `falls` more. -/
def pseudoMagic (rises falls : Nat) : List Instr :=
  .magDi :: (List.replicate (rises + 1) .magWrise ++ List.replicate (falls + 1) .magWfall
    ++ [.magAssert, .magHold, .magRel, .magEi])

/-- MAGIC with the host's steps between its words: MON_IN low for one sample and `lows` more, high for
one and `highs` more, then low. -/
def magicWithHost (lows highs : Nat) : List Instr :=
  [.magDi, .hostmon false] ++ List.replicate (lows + 1) .magWrise ++ [.hostmon true, .magWrise]
    ++ List.replicate highs .magWfall
    ++ [.hostmon false, .magWfall, .magAssert, .magHold, .magRel, .magEi]

/-- The words of `CYCLE snap` from POLL data to RSTUPD; the snapshot is the collaborator's. -/
def cycleToReset : List Instr :=
  [.pollData, .build, .latch] ++ pseudoCompile ++ [.publish, .ledupd, .rstupd]

/-- CYCLE snap, of a cycle with the given MAGREQ: "then MAGIC if MAGREQ = 1". -/
def pseudoCycle (magReq : Bool) (rises falls : Nat) : List Instr :=
  cycleToReset ++ if magReq then pseudoMagic rises falls else []

/-- CYCLE nodata. -/
def pseudoCycleNodata : List Instr := [.pollNodata, .rstupd]

/-- Performs operations one after the other, stopping where one has no step. -/
def perform : List Instr → State → Out
  | [], s => .next s
  | i :: rest, s =>
    match exec i s with
    | .next t => perform rest t
    | .fault f => .fault f
    | .refused r => .refused r

end Sys2Proof.Machine
end

