-- ==== Sys2Proof/Safety.lean ====
section
/-! DEFINITION. What a safe run is, in the terms the claims use: the invariants of the block, the
states a run reaches, and the fairness the spec assumes of infinite runs. -/

namespace Sys2Proof.Safety

open Sys2Proof.Machine

/-! ### Tables -/

/-- Slot `slot` of TBL is `compile(m)` (42_table_compiler.md R150). -/
def HoldsTable (s : State) (slot : Slot) (m : ScanMatrix) : Prop :=
  ∀ S : Byte, s.entryAt slot S = entry m S

/-- The double-buffer invariant (10_state.md R40) with what makes it inductive (95_test_vectors.md
L2.10): the active table is a complete compile; while compiling, the entries below CIDX of the other
table are M's; before PUBLISH all of them are. -/
structure DoubleBuffer (s : State) : Prop where
  active : ∃ m, HoldsTable s s.act m
  written : s.phase = .compile →
    ∀ S : Byte, S < s.cidx → s.entryAt (1 - s.act) S = entry s.matrix S
  complete : s.phase = .publish → HoldsTable s (1 - s.act) s.matrix

/-! ### Registers -/

/-- The phases at which IE is 0: before INIT and from MAG_DI to MAG_EI (10_state.md R24,
45_aux_signaling.md R213). -/
def maskedPhases : List Phase :=
  [.init, .magRise, .magFall, .magAssert, .magHold, .magRel, .magEi]

/-- IE is 0 exactly at the masked phases; a service in progress has its strobe pending and was
enabled (10_state.md R24, R25). -/
structure InterruptOk (s : State) : Prop where
  mask : s.ie = false ↔ s.phase ∈ maskedPhases
  service : s.inIsr = true → s.pend = true ∧ s.ie = true

/-- MAG is 1 exactly between MAG_ASSERT and MAG_REL (45_aux_signaling.md R214); the falling-edge wait has
a sample to compare with (45_aux_signaling.md R207). -/
structure MagicOk (s : State) : Prop where
  pulse : s.mag = true ↔ s.phase = .magHold ∨ s.phase = .magRel
  sampled : s.phase = .magFall → s.monPrev ≠ none

/-- LED agrees with the active table, but for the moment between PUBLISH and LEDUPD
(45_aux_signaling.md R202). -/
def LedOk (s : State) : Prop := s.phase ≠ .led → (s.led = true ↔ s.entryAt s.act 0x00#8 ≠ 0xFF#8)

/-- Under a well-formed configuration, bits 5 to 7 of the matrix hold nothing but the two mode-switch
virtual positions (10_state.md R34, 30_encoding.md R71). -/
structure MatrixOk (s : State) : Prop where
  wellFormed : s.cfg.wf = true
  reserved : ∀ p : Coord, 5 ≤ p.b → ScanMatrix.bit s.matrix p = true →
    p = s.cfg.modeActPos ∨ p = s.cfg.modeDeactPos

/-- A state that the model does not refuse (60_exceptions.md R234, R236). -/
structure Legal (s : State) : Prop where
  wellFormed : s.cfg.wf = true
  phase : s.phase ≠ .unreachable

/-- Every step of any operation, and every step of the machine, keeps P. -/
def Kept (P : State → Prop) : Prop :=
  (∀ (i : Instr) (s t : State), P s → exec i s = .next t → P t) ∧
    ∀ s t : State, P s → step s = .next t → P t

/-! ### The matrix builder, said by what each key contributes -/

/-- Modifier flag i resolves to coordinate p: the table of 40_matrix_builder.md R104, row by row. -/
def ModifierSets (cfg : Config) (i : Nat) (p : Coord) : Prop :=
  (i ∈ [0, 4] ∧ p = cfg.symPos) ∨ (i ∈ [1, 5] ∧ p = cfg.capsPos) ∨
    (i ∈ [2, 6] ∧ (p = cfg.capsPos ∨ p = cfg.symPos)) ∨ (i ∈ [3, 7] ∧ p = cfg.guiPos)

/-- Code c is read through KEYMAP: it is no empty slot and no overriding joystick key
(40_matrix_builder.md R113, R115). -/
def ReadsKeyMap (cfg : Config) (mode : Bool) (c : Code) : Prop :=
  c ≠ cfg.emptyCode ∧ (mode = false ∨ joyTarget cfg c = none)

/-- Code c contributes coordinate p: as a joystick key in joystick mode its target alone, else its
KEYMAP key and the shift keys its flags force (40_matrix_builder.md R110, R113, R114). -/
def Contributes (cfg : Config) (mode : Bool) (c : Code) (p : Coord) : Prop :=
  (c ≠ cfg.emptyCode ∧ mode = true ∧ joyTarget cfg c = some p) ∨
    (ReadsKeyMap cfg mode c ∧ ∃ q caps sym, keyResult cfg c = .key q caps sym ∧
      (p = q ∨ (caps = true ∧ p = cfg.capsPos) ∨ (sym = true ∧ p = cfg.symPos)))

/-! ### Runs -/

/-- `Reaches cfg s m`: some run of a block with configuration cfg, under any interleaving, any host and
any USB collaborator, reaches s, and m is the matrix of its last publication since reset, all-clear if there was
none (44_strobe_responder.md R192). -/
inductive Reaches (cfg : Config) : State → ScanMatrix → Prop
  /-- reset, with any draws -/
  | reset (out selIn : Byte) (monIn : Bool) :
      Reaches cfg (State.resetDraw cfg out selIn monIn) ScanMatrix.clear
  /-- a platform reset during the run, with any draws (70_reset_and_hazards.md R260) -/
  | platformReset {s : State} {m : ScanMatrix} (out selIn : Byte) (monIn : Bool) :
      Reaches cfg s m → Reaches cfg (s.platformReset out selIn monIn) ScanMatrix.clear
  /-- the environment puts its coming answers and choices in place -/
  | input {s : State} {m : ScanMatrix} (usb : List Snapshot) (sched : List OpWord) (draws : Nat) :
      Reaches cfg s m → Reaches cfg { s with usb := usb, sched := sched, draws := draws } m
  /-- a publication -/
  | publish {s t : State} {m : ScanMatrix} :
      Reaches cfg s m → exec .publish s = .next t → Reaches cfg t s.matrix
  /-- any other step -/
  | other {s t : State} {m : ScanMatrix} (i : Instr) :
      i ≠ .publish → Reaches cfg s m → exec i s = .next t → Reaches cfg t m

/-- An infinite run: the state after each step, the next one by some operation. -/
def IsRun (run : Nat → State) : Prop := ∀ n, ∃ i, exec i (run n) = .next (run (n + 1))

/-- Weak fairness of the responder (44_strobe_responder.md R193): a run in which IE = 1 and PEND = 1 hold
from some step on, and INISR = 0 holds infinitely often, contains an ISR_RUN. An assumption about
infinite runs; no step depends on it (DEDUCED, log entry 17). -/
def WeaklyFair (run : Nat → State) : Prop :=
  ∀ k, (∀ n, k ≤ n → (run n).ie = true ∧ (run n).pend = true) →
    (∀ n, ∃ n', n ≤ n' ∧ (run n').inIsr = false) →
    ∃ n S, k ≤ n ∧ exec (.isrRun S) (run n) = .next (run (n + 1))

end Sys2Proof.Safety
end

