-- ==== Sys2Proof/WellFormed.lean ====
section
/-! DEFINITION. Well-formedness of the data that is not well-formed by its type: operation words (the
reserved words of 30_encoding.md R80, written from that rule's list and not from the decoder) and
snapshots (30_encoding.md R74). The checks of a configuration (60_exceptions.md R236) are in
Machine/ConfigCheck.lean. An `Instr` has no ill-formed term. -/

namespace Sys2Proof

/-- 30_encoding.md R80, "op 0xE and 0xF". -/
def OpWord.reservedOp (w : OpWord) : Bool :=
  w.extractLsb' 12 4 == 0xE#4 || w.extractLsb' 12 4 == 0xF#4

/-- 30_encoding.md R80, a nonzero `sub` where R76 gives 0: every op but POLL (1), MAG_* (8) and
HOSTMON (0xD). -/
def OpWord.reservedSub (w : OpWord) : Bool :=
  w.extractLsb' 12 4 != 0x1#4 && w.extractLsb' 12 4 != 0x8#4 && w.extractLsb' 12 4 != 0xD#4
    && w.extractLsb' 8 4 != 0#4

/-- 30_encoding.md R80, "POLL or HOSTMON with sub[3:1] nonzero". -/
def OpWord.reservedFlag (w : OpWord) : Bool :=
  (w.extractLsb' 12 4 == 0x1#4 || w.extractLsb' 12 4 == 0xD#4) && w.extractLsb' 9 3 != 0#3

/-- 30_encoding.md R80, "op 0x8 with sub 7 to 15". -/
def OpWord.reservedMagic (w : OpWord) : Bool :=
  w.extractLsb' 12 4 == 0x8#4 && decide (7 ≤ (w.extractLsb' 8 4).toNat)

/-- 30_encoding.md R80, a nonzero `imm8` where R76 gives 0: every op but CENTRY (4), ISR_RUN (0xA)
and HOSTSEL (0xC). -/
def OpWord.reservedImm (w : OpWord) : Bool :=
  w.extractLsb' 12 4 != 0x4#4 && w.extractLsb' 12 4 != 0xA#4 && w.extractLsb' 12 4 != 0xC#4
    && w.extractLsb' 0 8 != 0#8

/-- A word that names an operation: none of the reservations of 30_encoding.md R80 holds. -/
def OpWord.wf (w : OpWord) : Bool :=
  !(OpWord.reservedOp w || OpWord.reservedSub w || OpWord.reservedFlag w
    || OpWord.reservedMagic w || OpWord.reservedImm w)

/-- A snapshot has exactly N_KEYS code slots, of CODE_WIDTH bits each (10_state.md R33, 30_encoding.md R74). -/
def Snapshot.wf (cfg : Config) (sn : Snapshot) : Bool :=
  sn.codes.length == cfg.nKeys && sn.codes.all (fun c => decide (c < 2 ^ cfg.codeWidth))

end Sys2Proof
end

