-- ==== Sys2Proof/Certificates/Slice0/Obligations.lean ====
section
/-! DEFINITION. The statements about the block, from the numbered rules of spec/. Each docstring cites
what it formalises. -/

open Sys2Proof Sys2Proof.Machine Sys2Proof.Safety

/-! ### Encoding and stepping -/

/-- Words written out from 30_encoding.md R76 to R78 (the table of 95_test_vectors.md L2.1). -/
def Obligations.DecodesWordsOfTheSpec : Prop :=
  decode 0x0000#16 = .op .init ∧ decode 0x1100#16 = .op .pollData ∧
  decode 0x40FF#16 = .op (.centry 0xFF#8) ∧ decode 0x8300#16 = .op .magAssert ∧
  decode 0xA0FD#16 = .op (.isrRun 0xFD#8) ∧ decode 0xC0FE#16 = .op (.hostsel 0xFE#8) ∧
  decode 0xD100#16 = .op (.hostmon true) ∧ decode 0x8700#16 = .reserved ∧
  decode 0xE123#16 = .reserved

/-- A scheduled word that names an operation is performed by the next step, in the state without that
word (20_memory.md R59; the schedule is the model's, log entry 1). -/
def Obligations.StepRunsTheScheduledOperation : Prop :=
  ∀ (s : State) (w : OpWord) (rest : List OpWord) (i : Instr),
    Legal s → s.sched = w :: rest → decode w = .op i →
    step s = exec i { s with sched := rest }

/-- With nothing scheduled, the next step is that of some operation enabled in the state, and it
completes: the block is never stuck (10_state.md R31, 60_exceptions.md R238; log entry 2). -/
def Obligations.UnscheduledStepTakesAnEnabledOperation : Prop :=
  ∀ s : State, Legal s → s.sched = [] →
    ∃ (i : Instr) (t : State), enabled i s = true ∧
      step s = exec i { s with draws := s.draws + 1 } ∧ step s = .next t

/-- Two refusals of 60_exceptions.md R232: an ill-formed configuration and PHASE = 15. The third, a reserved
word, is in `ReservedWordsAreThoseListed`. That step refuses before it takes any operation, and names an
ill-formed configuration ahead of PHASE = 15 and both ahead of a scheduled reserved word, is the model's
choice (log entry 15). -/
def Obligations.StepRefusesByName : Prop :=
  ∀ s : State,
    (s.cfg.wf = false → step s = .refused .illFormedConfig) ∧
    (s.cfg.wf = true → s.phase = .unreachable → step s = .refused .unreachablePhase)

/-- Decoding and encoding agree in both directions: no operand bit is dropped and each operation has one
word (30_encoding.md R75 to R78, R81). -/
def Obligations.DecodingAndEncodingAgree : Prop :=
  (∀ i : Instr, decode (encode i) = .op i) ∧
    ∀ (w : OpWord) (i : Instr), decode w = .op i → w = encode i

/-- The decoder says `reserved` of exactly the words 30_encoding.md R80 lists, and a step asked to perform
one refuses. -/
def Obligations.ReservedWordsAreThoseListed : Prop :=
  (∀ w : OpWord, decode w = .reserved ↔ OpWord.wf w = false) ∧
    ∀ (s : State) (w : OpWord) (rest : List OpWord),
      Legal s → s.sched = w :: rest → OpWord.wf w = false → step s = .refused (.reservedWord w)

/-- 30_encoding.md R81: op 0xE and 0xF are reserved; otherwise the table row that matches names the word,
two different rows match no word, and a word no row matches is reserved. -/
def Obligations.DecoderFollowsTheTable : Prop :=
  ∀ w : OpWord,
    ((OpWord.op w = 0xE#4 ∨ OpWord.op w = 0xF#4) → decode w = .reserved) ∧
    (OpWord.op w ≠ 0xE#4 → OpWord.op w ≠ 0xF#4 →
      ∀ row ∈ opTable, w &&& row.mask = row.value → decode w = .op (row.make w)) ∧
    (opTable.Pairwise fun a b => ¬(w &&& a.mask = a.value ∧ w &&& b.mask = b.value)) ∧
    ((∀ row ∈ opTable, w &&& row.mask ≠ row.value) → decode w = .reserved)

/-- 30_encoding.md R76: for op 0 to 7 the op value equals the PHASE value at which the operation is
enabled, and op 8 covers the phases 8 to 14 with sub = PHASE - 8. -/
def Obligations.PhaseNumbersTheIdleWords : Prop :=
  ∀ (i : Instr) (p : Phase), phaseOf i = some p →
    (p.code.toNat < 8 → OpWord.op (encode i) = p.code) ∧
    (8 ≤ p.code.toNat → p.code.toNat ≤ 14 ∧ OpWord.op (encode i) = 8#4 ∧
      ((encode i).extractLsb' 8 4).toNat = p.code.toNat - 8)

/-- The assembler syntax names each operation once (30_encoding.md R82). -/
def Obligations.AssemblerReadsWhatItWrites : Prop :=
  ∀ i : Instr, assemble (asmParts i).1 (asmParts i).2 = some i

/-- 30_encoding.md R79: an idle word names a step only when it matches PHASE and INISR = 0; CENTRY needs
S = CIDX too; ISR_RUN needs IE = 1, PEND = 1, INISR = 0 and S = SEL_IN; ISR_CLR needs INISR = 1; the host's
words are enabled in every state. Where the condition holds the operation completes. -/
def Obligations.AStepExistsExactlyWhenEnabled : Prop :=
  ∀ (i : Instr) (s : State), (∃ t, exec i s = .next t) ↔
    match i with
    | .centry S => s.phase = .compile ∧ s.inIsr = false ∧ S = s.cidx
    | .isrRun S => s.ie = true ∧ s.pend = true ∧ s.inIsr = false ∧ S = s.selIn
    | .isrClr => s.inIsr = true
    | .edge => True
    | .hostsel _ => True
    | .hostmon _ => True
    | j => phaseOf j = some s.phase ∧ s.inIsr = false

/-! ### Boot and reset -/

/-- 70_reset_and_hazards.md R262: its word, its effect, its enabling condition, and a strobe before INIT,
which is served after it from the reset tables. -/
def Obligations.InitEnablesTheStrobe : Prop :=
  decode 0x0000#16 = .op .init ∧
  (∀ s : State, s.phase = .init → s.inIsr = false →
    exec .init s = .next { s with ie := true, phase := .poll }) ∧
  (∀ s : State, ¬(s.phase = .init ∧ s.inIsr = false) → ∀ t, exec .init s ≠ .next t) ∧
  ∀ (cfg : Config) (out selIn : Byte) (monIn : Bool),
    ∃ t, perform [.edge, .init, .isrRun selIn] (State.resetDraw cfg out selIn monIn) = .next t ∧
      t.out = 0xFF#8

/-- The reset values that 70_reset_and_hazards.md R260 states, at power-on and at a platform reset in any state,
for every configuration and every draw of OUT, SEL_IN and MON_IN; the draws stand in their registers. -/
def Obligations.ResetLeavesTheBlockIdle : Prop :=
  ∀ (cfg : Config) (out selIn : Byte) (monIn : Bool) (s : State),
    (s = State.resetDraw cfg out selIn monIn ∨
      ∃ s₀ : State, s₀.cfg = cfg ∧ s = s₀.platformReset out selIn monIn) →
    (∀ slot i, s.entryAt slot i = 0xFF#8) ∧ s.act = 0 ∧ s.mode = false ∧ s.pend = false ∧
    s.ie = false ∧ s.inIsr = false ∧ s.led = false ∧ s.rst = false ∧ s.mag = false ∧
    s.phase = .init ∧ s.events = [] ∧ s.out = out ∧ s.selIn = selIn ∧ s.monIn = monIn ∧
    s.cfg = cfg

/-- The invariants hold after reset, whatever the configuration and the draws (43_publication.md R176
"at reset both slots are compile(all-clear)"; 70_reset_and_hazards.md R260). The model's choice, for which
the spec gives no value: SNAP's reset value, on which the snapshot clause rests, M's, on which MatrixOk
rests (both log entry 10), and the form of table memory, on which the tbl clause rests (log entry 12). -/
def Obligations.InvariantsHoldAfterReset : Prop :=
  ∀ (cfg : Config) (out selIn : Byte) (monIn : Bool),
    let s := State.resetDraw cfg out selIn monIn
    HoldsTable s 0 ScanMatrix.clear ∧ HoldsTable s 1 ScanMatrix.clear ∧ DoubleBuffer s ∧
    InterruptOk s ∧ MagicOk s ∧ LedOk s ∧ s.tbl.wf = true ∧ s.snap.wf cfg = true ∧
    (cfg.wf = true → MatrixOk s ∧ Legal s)

/-! ### Poll and matrix builder -/

/-- POLL with data (40_matrix_builder.md R100): SNAP takes a snapshot with N_KEYS slots of
CODE_WIDTH bits, the collaborator's next one where the state holds it and a free one where it does not (log entries 4, 5). -/
def Obligations.PollDataTakesTheSnapshot : Prop :=
  ∀ s : State, s.phase = .poll → s.inIsr = false →
    (∃ (sn : Snapshot) (draws : Nat), sn.wf s.cfg = true ∧
      exec .pollData s =
        .next { s with snap := sn, usb := s.usb.tail, draws := draws, phase := .build }) ∧
    ∀ (sn : Snapshot) (rest : List Snapshot), s.usb = sn :: rest →
      sn.wf s.cfg = true →
      exec .pollData s = .next { s with snap := sn, usb := rest, phase := .build }

/-- POLL with no data (40_matrix_builder.md R101): RSTREQ by RESET_ON_NODATA, MAGREQ 0, on to P_RST,
everything else unchanged. -/
def Obligations.PollNodataSkipsTheBuild : Prop :=
  decode 0x1000#16 = .op .pollNodata ∧
  ∀ s : State, s.phase = .poll → s.inIsr = false →
    (s.cfg.resetOnNodata = .driveLow →
      exec .pollNodata s = .next { s with rstReq := false, magReq := false, phase := .rst }) ∧
    (s.cfg.resetOnNodata = .hold →
      exec .pollNodata s = .next { s with rstReq := s.rst, magReq := false, phase := .rst })

/-- BUILD's matrix holds exactly the bits that a pressed modifier, by the table of R104, or a pressed code
contributes: the OR of all contributions, from all-clear (40_matrix_builder.md R104, R110 to R115, R117). -/
def Obligations.BuildSetsExactlyTheContributedBits : Prop :=
  ∀ s : State, s.phase = .build → s.inIsr = false →
    ∃ t, exec .build s = .next t ∧ ∀ p : Coord, p.r < 8 → p.b < 8 →
      (ScanMatrix.bit t.matrix p = true ↔
        (∃ i, i < 8 ∧ s.snap.mods.getLsbD i = true ∧ ModifierSets s.cfg i p) ∨
          ∃ c ∈ s.snap.codes, Contributes s.cfg s.mode c p)

/-- RSTREQ and MAGREQ after BUILD say whether the snapshot holds a code that KEYMAP maps to RESETK, to
MAGICK (40_matrix_builder.md R110, R117). -/
def Obligations.BuildRaisesTheRequests : Prop :=
  ∀ s : State, s.phase = .build → s.inIsr = false →
    ∃ t, exec .build s = .next t ∧
      (t.rstReq = true ↔ ∃ c ∈ s.snap.codes,
        ReadsKeyMap s.cfg s.mode c ∧ keyResult s.cfg c = .resetK) ∧
      (t.magReq = true ↔ ∃ c ∈ s.snap.codes,
        ReadsKeyMap s.cfg s.mode c ∧ keyResult s.cfg c = .magicK)

/-- BUILD emits one event per distinct unmapped code, in increasing code order, and changes nothing for
it (40_matrix_builder.md R110, R118; 60_exceptions.md R230). -/
def Obligations.BuildReportsEachUnmappedCodeOnce : Prop :=
  ∀ s : State, s.phase = .build → s.inIsr = false →
    ∃ (t : State) (u : List Code), exec .build s = .next t ∧
      t.events = s.events ++ u.map Event.unmapped ∧ u.Pairwise (· < ·) ∧
      ∀ c, c ∈ u ↔ c ∈ s.snap.codes ∧ ReadsKeyMap s.cfg s.mode c ∧ keyResult s.cfg c = .noMap

/-- BUILD's result does not depend on the order of the codes or on how often one appears
(40_matrix_builder.md R112; 30_encoding.md R74). -/
def Obligations.BuildIgnoresOrderAndRepeats : Prop :=
  ∀ (s : State) (sn : Snapshot), s.phase = .build → s.inIsr = false →
    sn.mods = s.snap.mods → (∀ c, c ∈ sn.codes ↔ c ∈ s.snap.codes) →
    ∃ t, exec .build s = .next t ∧ exec .build { s with snap := sn } = .next { t with snap := sn }

/-- BUILD's result is a function of SNAP, MODE and the configuration alone (40_matrix_builder.md R116). -/
def Obligations.BuildDependsOnSnapshotModeAndConfigurationAlone : Prop :=
  ∀ s s' : State, s.phase = .build → s.inIsr = false → s'.phase = .build → s'.inIsr = false →
    s.snap = s'.snap → s.mode = s'.mode → s.cfg = s'.cfg →
    ∃ (t t' : State) (u : List Event), exec .build s = .next t ∧ exec .build s' = .next t' ∧
      t.matrix = t'.matrix ∧ t.rstReq = t'.rstReq ∧ t.magReq = t'.magReq ∧
      t.events = s.events ++ u ∧ t'.events = s'.events ++ u

/-- A snapshot with every slot empty and no modifier gives the all-clear matrix, no request and no event
(40_matrix_builder.md R120 (a), R119). -/
def Obligations.EmptySnapshotBuildsAllClear : Prop :=
  ∀ s : State, s.phase = .build → s.inIsr = false → s.snap.mods = 0 →
    (∀ c ∈ s.snap.codes, c = s.cfg.emptyCode) →
    exec .build s = .next { s with
      matrix := ScanMatrix.clear, rstReq := false, magReq := false, phase := .latch }

/-- BUILD writes M, RSTREQ, MAGREQ, the event history and PHASE, and nothing else; all of memory is
unchanged (40_matrix_builder.md R110, R116). -/
def Obligations.BuildFrame : Prop :=
  ∀ s : State, s.phase = .build → s.inIsr = false →
    ∃ t, exec .build s = .next t ∧
      t = { s with matrix := t.matrix, rstReq := t.rstReq, magReq := t.magReq,
                   events := t.events, phase := .latch } ∧
      ∀ a, Memory.read t.tbl a = Memory.read s.tbl a

/-! ### Mode latch -/

/-- 41_mode_latch.md R140 to R142: deactivate clears, else activate sets, else MODE stays. -/
def Obligations.LatchSetsAndClearsTheMode : Prop :=
  decode 0x3000#16 = .op .latch ∧
  ∀ s : State, s.phase = .latch → s.inIsr = false →
    (ScanMatrix.bit s.matrix s.cfg.modeDeactPos = true →
      exec .latch s = .next { s with mode := false, cidx := 0, phase := .compile }) ∧
    (ScanMatrix.bit s.matrix s.cfg.modeDeactPos = false →
      ScanMatrix.bit s.matrix s.cfg.modeActPos = true →
      exec .latch s = .next { s with mode := true, cidx := 0, phase := .compile }) ∧
    (ScanMatrix.bit s.matrix s.cfg.modeDeactPos = false →
      ScanMatrix.bit s.matrix s.cfg.modeActPos = false →
      exec .latch s = .next { s with cidx := 0, phase := .compile })

/-- 41_mode_latch.md R145: MODE changes only at LATCH and only through the two virtual bits: to 1 with the
activate bit, to 0 with the deactivate bit. -/
def Obligations.ModeChangesOnlyAtLatch : Prop :=
  ∀ (i : Instr) (s t : State), exec i s = .next t → t.mode ≠ s.mode →
    i = .latch ∧
      (t.mode = true → ScanMatrix.bit s.matrix s.cfg.modeActPos = true) ∧
      (t.mode = false → ScanMatrix.bit s.matrix s.cfg.modeDeactPos = true)

/-! ### Response tables -/

/-- 42_table_compiler.md R151: bit b of entry(M, S) is 0 exactly when some row r has S[r] = 0 and
M[r][b] = 1. -/
def Obligations.EntryLanesAreIndependent : Prop :=
  ∀ (m : ScanMatrix) (S : Byte) (b : Nat), b < 8 →
    ((entry m S).getLsbD b = false ↔
      ∃ r, r < 8 ∧ S.getLsbD r = false ∧ (ScanMatrix.row m r).getLsbD b = true)

/-- The laws (a) to (g) of 42_table_compiler.md R156; (g) for every matrix whose bits 5 to 7 hold nothing but
two positions (30_encoding.md R71). -/
def Obligations.ResponseFunctionLaws : Prop :=
  (∀ m : ScanMatrix, entry m 0xFF#8 = 0xFF#8) ∧
  (∀ (m : ScanMatrix) (r : Nat), r < 8 → entry m (~~~(1#8 <<< r)) = ~~~(ScanMatrix.row m r)) ∧
  (∀ (m : ScanMatrix) (S S' : Byte), entry m (S &&& S') = entry m S &&& entry m S') ∧
  (∀ m : ScanMatrix, entry m 0x00#8 =
    ~~~(m[0] ||| m[1] ||| m[2] ||| m[3] ||| m[4] ||| m[5] ||| m[6] ||| m[7])) ∧
  (∀ (m : ScanMatrix) (S : Byte), (∀ r, r < 8 → ScanMatrix.row m r = 0x00#8) →
    entry m S = 0xFF#8) ∧
  (∀ (m m' : ScanMatrix) (S : Byte),
    (∀ r, r < 8 → S.getLsbD r = false → ScanMatrix.row m r = ScanMatrix.row m' r) →
    entry m S = entry m' S) ∧
  ∀ (m : ScanMatrix) (act deact : Coord) (S : Byte) (b : Nat),
    (∀ p : Coord, 5 ≤ p.b → ScanMatrix.bit m p = true → p = act ∨ p = deact) → 5 ≤ b → b < 8 →
    (entry m S).getLsbD b = false →
    ∃ p : Coord, (p = act ∨ p = deact) ∧ p.b = b ∧ S.getLsbD p.r = false ∧
      ScanMatrix.bit m p = true

/-- 42_table_compiler.md R152: CENTRY S writes entry(M, S) at {1 - ACT, S} and advances CIDX, or goes on to
P_PUBLISH after 0xFF; every other register, and every other byte of table memory, is unchanged. -/
def Obligations.CentryWritesOneEntry : Prop :=
  (∀ S : Byte, decode (0x4000#16 ||| S.setWidth 16) = .op (.centry S)) ∧
  ∀ (s : State) (S : Byte), s.phase = .compile → s.inIsr = false → S = s.cidx →
    ∃ t, exec (.centry S) s = .next t ∧
      t.entryAt (1 - s.act) S = entry s.matrix S ∧
      (∀ a, a ≠ (tableAddr (1 - s.act) S).toNat → Memory.read t.tbl a = Memory.read s.tbl a) ∧
      (S = 0xFF#8 → t = { s with tbl := t.tbl, phase := .publish }) ∧
      (S ≠ 0xFF#8 → t = { s with tbl := t.tbl, cidx := S + 1 })

/-- 42_table_compiler.md R154: the 256 CENTRYs of a cycle leave compile(M) in the inactive slot and the active
one as it was. -/
def Obligations.CompileFillsTheInactiveTable : Prop :=
  ∀ s : State, s.phase = .compile → s.inIsr = false → s.cidx = 0 →
    ∃ t, perform pseudoCompile s = .next t ∧
      HoldsTable t (1 - s.act) s.matrix ∧
      (∀ S, t.entryAt s.act S = s.entryAt s.act S) ∧
      t = { s with tbl := t.tbl, cidx := 0xFF#8, phase := .publish }

/-- 43_publication.md R170: PUBLISH switches ACT and goes on to P_LED; OUT, MODE and the tables stay. -/
def Obligations.PublishSwitchesTheActiveTable : Prop :=
  decode 0x5000#16 = .op .publish ∧
  ∀ s : State, s.phase = .publish → s.inIsr = false →
    exec .publish s = .next { s with act := 1 - s.act, phase := .led } ∧ (1 - s.act) ≠ s.act

/-- 43_publication.md R172: under the double-buffer invariant, the table PUBLISH makes active is compile(M),
and the one it leaves is unchanged (R174). -/
def Obligations.PublishedTableIsComplete : Prop :=
  ∀ s : State, DoubleBuffer s → s.phase = .publish → s.inIsr = false →
    ∃ t, exec .publish s = .next t ∧ HoldsTable t t.act s.matrix ∧
      ∀ S, t.entryAt (1 - t.act) S = s.entryAt s.act S

/-- 42_table_compiler.md R153 and 10_state.md R40: no step writes TBL[ACT]. -/
def Obligations.ActiveTableIsNeverWritten : Prop :=
  ∀ (i : Instr) (s t : State), exec i s = .next t →
    (∀ S, t.entryAt s.act S = s.entryAt s.act S) ∧ (t.act ≠ s.act → i = .publish ∧ t.tbl = s.tbl)

/-- 43_publication.md R176: every step keeps the double-buffer invariant of 10_state.md R40. -/
def Obligations.EveryStepKeepsTheDoubleBuffer : Prop := Kept DoubleBuffer

/-- 20_memory.md R63 and 44_strobe_responder.md R192: at every point of every run, whatever the interleaving, the
active table is compile of the last published matrix, and every service answers with its entry. -/
def Obligations.EveryRunAnswersFromTheLastPublishedMatrix : Prop :=
  ∀ (cfg : Config) (s : State) (m : ScanMatrix), Reaches cfg s m →
    HoldsTable s s.act m ∧
      ∀ (S : Byte) (t : State), exec (.isrRun S) s = .next t → t.out = entry m S

/-! ### Strobe responder and host -/

/-- 44_strobe_responder.md R184, 60_exceptions.md R239: ISR_RUN writes OUT from the active table and sets INISR, and
nothing else. -/
def Obligations.ServiceAnswersFromTheActiveTable : Prop :=
  (∀ S : Byte, decode (0xA000#16 ||| S.setWidth 16) = .op (.isrRun S)) ∧
  ∀ (s : State) (S : Byte), s.ie = true → s.pend = true → s.inIsr = false → S = s.selIn →
    exec (.isrRun S) s = .next { s with out := s.entryAt s.act S, inIsr := true }

/-- 44_strobe_responder.md R185, 60_exceptions.md R240: ISR_CLR clears PEND and INISR, and nothing else. -/
def Obligations.ServiceReturnClearsTheStrobe : Prop :=
  decode 0xB000#16 = .op .isrClr ∧
  (∀ s : State, s.inIsr = true →
    exec .isrClr s = .next { s with pend := false, inIsr := false }) ∧
  ∀ s : State, s.inIsr = false → ∀ t, exec .isrClr s ≠ .next t

/-- 44_strobe_responder.md R190: a whole service writes OUT, INISR and PEND and nothing else, so the idle
sequencer goes on where it was. -/
def Obligations.ServiceLeavesTheIdleSequencerAlone : Prop :=
  ∀ (s : State) (S : Byte), s.ie = true → s.pend = true → s.inIsr = false → S = s.selIn →
    perform (pseudoService S) s = .next { s with out := s.entryAt s.act S, pend := false } ∧
    ∀ j : Instr, phaseOf j ≠ none →
      enabled j { s with out := s.entryAt s.act S, pend := false } = enabled j s

/-- 44_strobe_responder.md R186: while INISR = 1 exactly ISR_CLR and the host steps are enabled, and they leave
the idle sequencer's registers as they are. -/
def Obligations.ServiceRunsToCompletion : Prop :=
  ∀ (i : Instr) (s : State), s.inIsr = true →
    ((∃ t, exec i s = .next t) ↔
      i = .isrClr ∨ i = .edge ∨ (∃ S, i = .hostsel S) ∨ ∃ m, i = .hostmon m) ∧
    ∀ t, exec i s = .next t →
      t = { s with pend := t.pend, inIsr := t.inIsr, selIn := t.selIn, monIn := t.monIn }

/-- 44_strobe_responder.md R181, R188, R189: the host's steps, enabled in every state, each write one register. -/
def Obligations.HostStepsWriteTheirInputs : Prop :=
  decode 0x9000#16 = .op .edge ∧
  (∀ S : Byte, decode (0xC000#16 ||| S.setWidth 16) = .op (.hostsel S)) ∧
  decode 0xD000#16 = .op (.hostmon false) ∧ decode 0xD100#16 = .op (.hostmon true) ∧
  ∀ (s : State) (S : Byte) (m : Bool),
    exec .edge s = .next { s with pend := true } ∧
    exec (.hostsel S) s = .next { s with selIn := S } ∧
    exec (.hostmon m) s = .next { s with monIn := m }

/-- 44_strobe_responder.md R182: any number of EDGEs request one service; while IE = 0 none is served; a strobe
latched before MAG_EI is served after it. -/
def Obligations.StrobesCoalesceAndWait : Prop :=
  (∀ (n : Nat) (s : State),
    perform (List.replicate (n + 1) .edge) s = .next { s with pend := true }) ∧
  (∀ (n : Nat) (s : State), s.ie = true → s.inIsr = false →
    ∃ t, perform (List.replicate (n + 1) .edge ++ pseudoService s.selIn) s = .next t ∧
      ∀ S u, exec (.isrRun S) t ≠ .next u) ∧
  (∀ (s : State) (S : Byte), s.ie = false → ∀ u, exec (.isrRun S) s ≠ .next u) ∧
  ∀ s : State, s.phase = .magEi → s.inIsr = false → s.ie = false →
    perform [.edge, .magEi, .isrRun s.selIn] s = .next { s with
      pend := true, ie := true, phase := .poll, out := s.entryAt s.act s.selIn, inIsr := true }

/-- 44_strobe_responder.md R187: an EDGE between an ISR_RUN and its ISR_CLR gets no service of its own. -/
def Obligations.StrobeDuringAServiceIsAbsorbed : Prop :=
  ∀ (s : State) (S : Byte), s.ie = true → s.pend = true → s.inIsr = false → S = s.selIn →
    ∃ t, perform [.isrRun S, .edge, .isrClr] s = .next t ∧ t.pend = false ∧
      ∀ S' u, exec (.isrRun S') t ≠ .next u

/-! ### Auxiliary signaling -/

/-- 45_aux_signaling.md R201, R202: LEDUPD lights the LED exactly when entry 0x00 of the active table is not 0xFF,
that is, when some bit of the published matrix is 1. -/
def Obligations.LedShowsThePublishedMatrix : Prop :=
  decode 0x6000#16 = .op .ledupd ∧
  ∀ s : State, s.phase = .led → s.inIsr = false →
    (s.entryAt s.act 0x00#8 = 0xFF#8 →
      exec .ledupd s = .next { s with led := false, phase := .rst }) ∧
    (s.entryAt s.act 0x00#8 ≠ 0xFF#8 →
      exec .ledupd s = .next { s with led := true, phase := .rst }) ∧
    ∀ m : ScanMatrix, HoldsTable s s.act m →
      (s.entryAt s.act 0x00#8 ≠ 0xFF#8 ↔
        ∃ p : Coord, p.r < 8 ∧ p.b < 8 ∧ ScanMatrix.bit m p = true)

/-- 45_aux_signaling.md R203: RST takes RSTREQ, and MAGREQ chooses the next phase. -/
def Obligations.RstupdDrivesTheResetLine : Prop :=
  decode 0x7000#16 = .op .rstupd ∧
  ∀ s : State, s.phase = .rst → s.inIsr = false →
    ∃ t, exec .rstupd s = .next t ∧ t.resetOut = s.rstReq ∧
      (s.magReq = true → t = { s with rst := s.rstReq, phase := .magDi }) ∧
      (s.magReq = false → t = { s with rst := s.rstReq, phase := .poll })

/-- 45_aux_signaling.md R206: MAG_WRISE goes on only when a sample of 1 follows a sample of 0. -/
def Obligations.MagWriseWaitsForARisingEdge : Prop :=
  decode 0x8100#16 = .op .magWrise ∧
  ∀ s : State, s.phase = .magRise → s.inIsr = false →
    (s.monPrev = some false ∧ s.monIn = true →
      exec .magWrise s = .next { s with monPrev := some s.monIn, phase := .magFall }) ∧
    (¬(s.monPrev = some false ∧ s.monIn = true) →
      exec .magWrise s = .next { s with monPrev := some s.monIn })

/-- 45_aux_signaling.md R207: MAG_WFALL goes on only when a sample of 0 follows a sample of 1. -/
def Obligations.MagWfallWaitsForAFallingEdge : Prop :=
  decode 0x8200#16 = .op .magWfall ∧
  ∀ s : State, s.phase = .magFall → s.inIsr = false →
    (s.monPrev = some true ∧ s.monIn = false →
      exec .magWfall s = .next { s with monPrev := some s.monIn, phase := .magAssert }) ∧
    (¬(s.monPrev = some true ∧ s.monIn = false) →
      exec .magWfall s = .next { s with monPrev := some s.monIn })

/-- 45_aux_signaling.md R205, R208 to R211: the other actions of the handshake. -/
def Obligations.MagicActionsInOrder : Prop :=
  decode 0x8000#16 = .op .magDi ∧ decode 0x8300#16 = .op .magAssert ∧
  decode 0x8400#16 = .op .magHold ∧ decode 0x8500#16 = .op .magRel ∧
  decode 0x8600#16 = .op .magEi ∧
  ∀ s : State, s.inIsr = false →
    (s.phase = .magDi →
      exec .magDi s = .next { s with ie := false, monPrev := none, phase := .magRise }) ∧
    (s.phase = .magAssert → ∃ t, exec .magAssert s = .next t ∧
      t = { s with mag := true, phase := .magHold } ∧ t.magicOut = s.cfg.magActiveLevel) ∧
    (s.phase = .magHold → exec .magHold s = .next { s with phase := .magRel }) ∧
    (s.phase = .magRel → ∃ t, exec .magRel s = .next t ∧
      t = { s with mag := false, phase := .magEi } ∧ t.magicOut = !s.cfg.magActiveLevel) ∧
    (s.phase = .magEi → exec .magEi s = .next { s with ie := true, phase := .poll })

/-- 45_aux_signaling.md R205 to R211, 30_encoding.md R83: a whole MAGIC, MON_IN going low, high and low, with any
number of further samples of each level, ends at P_POLL with the strobe enabled and the line released. Its words
but for the host's are those of MAGIC. -/
def Obligations.MagicHandshakeCompletes : Prop :=
  (∀ lows highs : Nat, (magicWithHost lows highs).filter (fun i => (phaseOf i).isSome)
      = pseudoMagic (lows + 1) highs) ∧
  ∀ (lows highs : Nat) (s : State), s.phase = .magDi → s.inIsr = false →
    perform (magicWithHost lows highs) s
      = .next { s with
          ie := true, monPrev := some false, monIn := false, mag := false, phase := .poll }

/-- 45_aux_signaling.md R213: with MON_IN held, the waits repeat for ever and IE stays 0. -/
def Obligations.MagicWaitSpinsWithoutEdges : Prop :=
  ∀ (n : Nat) (s : State), s.inIsr = false →
    (s.phase = .magRise → ¬(s.monPrev = some false ∧ s.monIn = true) →
      perform (List.replicate (n + 1) .magWrise) s = .next { s with monPrev := some s.monIn }) ∧
    (s.phase = .magFall → ¬(s.monPrev = some true ∧ s.monIn = false) →
      perform (List.replicate (n + 1) .magWfall) s = .next { s with monPrev := some s.monIn })

/-- 45_aux_signaling.md R213, 10_state.md R24, R25: IE is 0 exactly before INIT and from MAG_DI to MAG_EI. -/
def Obligations.EveryStepKeepsTheInterruptMask : Prop := Kept InterruptOk

/-- 45_aux_signaling.md R214: MAG is 1 only between MAG_ASSERT and MAG_REL of one handshake; it is asserted only at
P_MAG_ASSERT, which only a falling edge of MON_IN seen by the wait enters. -/
def Obligations.MagicLineIsAPulse : Prop :=
  Kept MagicOk ∧
    (∀ (i : Instr) (s t : State), exec i s = .next t → s.mag = false → t.mag = true →
      i = .magAssert ∧ s.phase = .magAssert) ∧
    ∀ (i : Instr) (s t : State), exec i s = .next t → s.phase ≠ .magAssert →
      t.phase = .magAssert → i = .magWfall ∧ s.monPrev = some true ∧ s.monIn = false

/-- 45_aux_signaling.md R202: LED always agrees with TBL[ACT], but between PUBLISH and LEDUPD. -/
def Obligations.EveryStepKeepsTheLedTrue : Prop := Kept LedOk

/-- The output ports (10_state.md R38; 45_aux_signaling.md R202, R208, R210). -/
def Obligations.OutputPortsFollowTheRegisters : Prop :=
  ∀ s : State, s.dataOut = s.out ∧ s.resetOut = s.rst ∧
    (s.led = true → s.ledOut = s.cfg.ledActiveLevel) ∧
    (s.led = false → s.ledOut = !s.cfg.ledActiveLevel) ∧
    (s.mag = true → s.magicOut = s.cfg.magActiveLevel) ∧
    (s.mag = false → s.magicOut = !s.cfg.magActiveLevel)

/-! ### Whole-machine rules -/

/-- 10_state.md R34, 30_encoding.md R71: under a well-formed configuration bits 5 to 7 of the matrix hold nothing but
the two virtual positions. -/
def Obligations.EveryStepKeepsReservedMatrixBitsClear : Prop := Kept MatrixOk

/-- 10_state.md R33, 30_encoding.md R74: SNAP has N_KEYS slots of CODE_WIDTH bits (what other snapshots a
collaborator might give become is log entry 5). -/
def Obligations.EveryStepKeepsTheSnapshotSlots : Prop :=
  Kept fun s => s.snap.wf s.cfg = true

/-- The table memory keeps its canonical form and its 512 addresses (20_memory.md R51; log entry 12). -/
def Obligations.EveryStepKeepsTableMemoryCanonical : Prop := Kept fun s => s.tbl.wf = true

/-- 60_exceptions.md R234, 20_memory.md R64: no step writes PHASE = 15 and none writes the configuration. -/
def Obligations.EveryStepKeepsTheStateLegal : Prop :=
  Kept Legal ∧ ∀ (i : Instr) (s t : State), exec i s = .next t → t.cfg = s.cfg

/-- The summary of 10_state.md R39 and the ownership of 20_memory.md R58: which operations may change each
register. -/
def Obligations.OnlyTheOwnersWriteEachRegister : Prop :=
  ∀ (i : Instr) (s t : State), exec i s = .next t →
    (t.tbl ≠ s.tbl → ∃ S, i = .centry S) ∧
    (t.act ≠ s.act → i = .publish) ∧
    (t.mode ≠ s.mode → i = .latch) ∧
    (t.pend ≠ s.pend → i = .edge ∨ i = .isrClr) ∧
    (t.ie ≠ s.ie → i = .init ∨ i = .magDi ∨ i = .magEi) ∧
    (t.inIsr ≠ s.inIsr → i = .isrClr ∨ ∃ S, i = .isrRun S) ∧
    (t.out ≠ s.out → ∃ S, i = .isrRun S) ∧
    (t.led ≠ s.led → i = .ledupd) ∧
    (t.rst ≠ s.rst → i = .rstupd) ∧
    (t.mag ≠ s.mag → i = .magAssert ∨ i = .magRel) ∧
    (t.phase ≠ s.phase → phaseOf i = some s.phase) ∧
    (t.cidx ≠ s.cidx → i = .latch ∨ ∃ S, i = .centry S) ∧
    (t.snap ≠ s.snap → i = .pollData) ∧
    (t.matrix ≠ s.matrix → i = .build) ∧
    (t.rstReq ≠ s.rstReq ∨ t.magReq ≠ s.magReq → i = .build ∨ i = .pollNodata) ∧
    (t.monPrev ≠ s.monPrev → i = .magDi ∨ i = .magWrise ∨ i = .magWfall) ∧
    (t.selIn ≠ s.selIn → ∃ S, i = .hostsel S) ∧
    (t.monIn ≠ s.monIn → ∃ m, i = .hostmon m) ∧
    (t.events ≠ s.events → i = .build) ∧
    (t.usb ≠ s.usb ∨ t.draws ≠ s.draws → i = .pollData) ∧
    t.cfg = s.cfg ∧ t.sched = s.sched

/-- Memory frame of every operation: CENTRY S stores one byte at {1 - ACT, S}, and no other operation stores
anything (20_memory.md R50, R51, R58). -/
def Obligations.OnlyCentryStoresToTableMemory : Prop :=
  ∀ (i : Instr) (s t : State), exec i s = .next t →
    ∀ a, (∀ S, i = .centry S → a ≠ (tableAddr (1 - s.act) S).toNat) →
      Memory.read t.tbl a = Memory.read s.tbl a

/-- 70_reset_and_hazards.md R264: as long as every entry of the active table is the idle output, every service
returns 0xFF, and every operation but PUBLISH leaves the active table so. -/
def Obligations.IdleOutputUntilTheFirstPublication : Prop :=
  (∀ (s t : State) (S : Byte), (∀ S', s.entryAt s.act S' = 0xFF#8) →
    exec (.isrRun S) s = .next t → t.out = 0xFF#8) ∧
  ∀ (i : Instr) (s t : State), i ≠ .publish → (∀ S', s.entryAt s.act S' = 0xFF#8) →
    exec i s = .next t → ∀ S', t.entryAt t.act S' = 0xFF#8

/-- A whole data cycle with no other step between its operations (10_state.md R31, 30_encoding.md R83): the snapshot
is built, latched, compiled into the inactive slot and published; the LED and the reset line follow. Where the
magic key is not held that is the whole CYCLE; where it is, MAGIC follows and, MON_IN going low, high and low, ends
at P_POLL. Which snapshot a POLL takes is log entry 4. -/
def Obligations.DataCyclePublishesTheSnapshot : Prop :=
  ∀ (s : State) (sn : Snapshot) (rest : List Snapshot),
    s.phase = .poll → s.inIsr = false → s.usb = sn :: rest → sn.wf s.cfg = true →
    ∃ t, perform cycleToReset s = .next t ∧
      HoldsTable t t.act (buildOf s.cfg s.mode sn).matrix ∧ t.act = 1 - s.act ∧
      (∀ S, t.entryAt s.act S = s.entryAt s.act S) ∧
      t.mode = latchedMode s.cfg (buildOf s.cfg s.mode sn).matrix s.mode ∧
      (t.led = true ↔ entry (buildOf s.cfg s.mode sn).matrix 0x00#8 ≠ 0xFF#8) ∧
      t.rst = (buildOf s.cfg s.mode sn).rstReq ∧
      ((buildOf s.cfg s.mode sn).magReq = true → t.phase = .magDi ∧
        ∀ lows highs : Nat, perform (cycleToReset ++ magicWithHost lows highs) s = .next { t with
          ie := true, monPrev := some false, monIn := false, mag := false, phase := .poll }) ∧
      ((buildOf s.cfg s.mode sn).magReq = false → t.phase = .poll ∧
        ∀ rises falls : Nat, perform (pseudoCycle false rises falls) s = .next t) ∧
      t.usb = rest ∧ t.out = s.out ∧ t.pend = s.pend ∧ t.ie = s.ie ∧ t.inIsr = false

/-- A no-data cycle publishes nothing: only RST, RSTREQ and MAGREQ can change (40_matrix_builder.md R101,
43_publication.md R173, 45_aux_signaling.md R204). -/
def Obligations.NoDataCycleFreezesTheTable : Prop :=
  ∀ s : State, s.phase = .poll → s.inIsr = false →
    (s.cfg.resetOnNodata = .driveLow → perform pseudoCycleNodata s =
      .next { s with rstReq := false, magReq := false, rst := false }) ∧
    (s.cfg.resetOnNodata = .hold → perform pseudoCycleNodata s =
      .next { s with rstReq := s.rst, magReq := false })
end

