-- ==== Sys2Proof/Laws/Memory.lean ====
section
/-! SUPPORT. The laws of table memory: a read after a write, and the canonical form. -/

namespace Sys2Proof.Machine

theorem Memory.read_erase (m : Memory) (k j : Nat) :
    Memory.read (Memory.erase k m) j = if j = k then Memory.unlisted else Memory.read m j := by
  induction m with
  | nil => simp [Memory.erase, Memory.read]
  | cons e rest ih =>
    obtain ⟨a, x⟩ := e
    simp only [Memory.erase, Memory.read]
    by_cases hak : a = k
    · rw [if_pos hak, ih]
      by_cases hj : j = k
      · simp [hj]
      · simp [hj, show ¬a = j by omega]
    · rw [if_neg hak, Memory.read, ih]
      by_cases hj : a = j
      · simp [hj, show ¬j = k by omega]
      · simp [hj]

theorem Memory.length_erase_le (k : Nat) (m : Memory) :
    (Memory.erase k m).length ≤ m.length := by
  induction m with
  | nil => simp [Memory.erase]
  | cons e m ih => simp only [Memory.erase]; split <;> simp <;> omega

theorem Memory.read_insert (m : Memory) (k j : Nat) (v : Byte)
    (h : Memory.erase k m = m) :
    Memory.read (Memory.insert k v m) j = if j = k then v else Memory.read m j := by
  induction m with
  | nil => simp only [Memory.insert, Memory.read, eq_comm]
  | cons e rest ih =>
    obtain ⟨a, x⟩ := e
    have hne : a ≠ k := by
      rintro rfl
      have hl := congrArg List.length h
      have := Memory.length_erase_le a rest
      simp [Memory.erase] at hl
      omega
    have hrest : Memory.erase k rest = rest := by simpa [Memory.erase, hne] using h
    simp only [Memory.insert, Memory.read]
    split
    · simp only [Memory.read, eq_comm]
    · rw [Memory.read, ih hrest]
      by_cases hj : a = j
      · simp [hj, show ¬j = k by omega]
      · simp [hj]

theorem Memory.erase_erase (m : Memory) (k : Nat) :
    Memory.erase k (Memory.erase k m) = Memory.erase k m := by
  induction m with
  | nil => rfl
  | cons e rest ih =>
    by_cases h : e.1 = k <;> simp [Memory.erase, h, ih]

/-- A read after a write gives the byte written there, and every other byte as it was. -/
theorem Memory.read_write (m : Memory) (k j : Nat) (v : Byte) :
    Memory.read (Memory.write m k v) j = if j = k then v else Memory.read m j := by
  unfold Memory.write
  split
  · next h => simp [Memory.read_erase, h]
  · rw [Memory.read_insert _ _ _ _ (Memory.erase_erase m k), Memory.read_erase]
    by_cases hj : j = k <;> simp [hj]

theorem Memory.wfFrom_mono {lo lo' : Nat} (h : lo ≤ lo') {m : Memory}
    (hm : Memory.wfFrom lo' m = true) : Memory.wfFrom lo m = true := by
  cases m with
  | nil => rfl
  | cons e rest =>
    obtain ⟨a, x⟩ := e
    simp only [Memory.wfFrom, Bool.and_eq_true, decide_eq_true_eq] at hm ⊢
    exact ⟨⟨⟨by omega, hm.1.1.2⟩, hm.1.2⟩, hm.2⟩

theorem Memory.wfFrom_erase (k : Nat) {m : Memory} {lo : Nat}
    (hm : Memory.wfFrom lo m = true) : Memory.wfFrom lo (Memory.erase k m) = true := by
  induction m generalizing lo with
  | nil => rfl
  | cons e rest ih =>
    obtain ⟨a, x⟩ := e
    simp only [Memory.wfFrom, Bool.and_eq_true, decide_eq_true_eq] at hm
    simp only [Memory.erase]
    split
    · exact Memory.wfFrom_mono (by omega) (ih hm.2)
    · simp only [Memory.wfFrom, Bool.and_eq_true, decide_eq_true_eq]
      exact ⟨hm.1, ih hm.2⟩

theorem Memory.wfFrom_insert {k : Nat} {v : Byte} {m : Memory} {lo : Nat} (hlo : lo ≤ k)
    (hk : k < 512) (hv : v ≠ Memory.unlisted) (hm : Memory.wfFrom lo m = true)
    (he : Memory.read m k = Memory.unlisted) :
    Memory.wfFrom lo (Memory.insert k v m) = true := by
  induction m generalizing lo with
  | nil => simp [Memory.insert, Memory.wfFrom, hlo, hk, hv]
  | cons e rest ih =>
    obtain ⟨a, x⟩ := e
    simp only [Memory.wfFrom, Bool.and_eq_true, decide_eq_true_eq] at hm
    simp only [Memory.insert]
    split
    · next hlt =>
      simp only [Memory.wfFrom, Bool.and_eq_true, decide_eq_true_eq]
      exact ⟨⟨⟨hlo, hk⟩, hv⟩, ⟨⟨by omega, hm.1.1.2⟩, hm.1.2⟩, hm.2⟩
    · next hge =>
      have hne : a ≠ k := by
        intro h
        simp only [Memory.read, h, if_true] at he
        exact hm.1.2 he
      simp only [Memory.wfFrom, Bool.and_eq_true, decide_eq_true_eq]
      refine ⟨hm.1, ih (by omega) hm.2 ?_⟩
      simpa [Memory.read, hne] using he

/-- A write inside the table memory keeps the canonical form. -/
theorem Memory.wf_write {m : Memory} {k : Nat} (hk : k < 512) (v : Byte)
    (hm : Memory.wf m = true) : Memory.wf (Memory.write m k v) = true := by
  unfold Memory.wf Memory.write at *
  split
  · exact Memory.wfFrom_erase k hm
  · next hv =>
    exact Memory.wfFrom_insert (Nat.zero_le k) hk hv (Memory.wfFrom_erase k hm)
      (by simp [Memory.read_erase])

/-- Reset memory, which lists nothing, is in canonical form. -/
theorem Memory.wf_nil : Memory.wf [] = true := rfl

/-! ### Table entries -/

theorem tableAddr_toNat (slot : Slot) (i : Byte) :
    (tableAddr slot i).toNat = slot.toNat * 256 + i.toNat := by
  unfold tableAddr
  rw [BitVec.toNat_append, Nat.shiftLeft_eq, Nat.mul_comm,
    ← Nat.two_pow_add_eq_or_of_lt i.isLt, Nat.mul_comm]

/-- Different entries have different addresses (20_memory.md R51: "512 entries independent"). -/
theorem tableAddr_inj {slot slot' : Slot} {i i' : Byte} :
    (tableAddr slot i).toNat = (tableAddr slot' i').toNat ↔ slot = slot' ∧ i = i' := by
  rw [tableAddr_toNat, tableAddr_toNat, ← BitVec.toNat_inj, ← BitVec.toNat_inj]
  have := i.isLt
  have := i'.isLt
  omega

/-- The slot that is not active is another one. -/
theorem one_sub_ne (a : Slot) : 1 - a ≠ a := by revert a; decide

/-- The other slot of the other slot. -/
theorem one_sub_one_sub (a : Slot) : 1 - (1 - a) = a := by revert a; decide

/-- A slot is the active one or the other. -/
theorem slot_cases (a b : Slot) : b = a ∨ b = 1 - a := by revert a b; decide

/-- An entry after a write to an entry. -/
theorem State.entryAt_memWrite (s : State) (slot slot' : Slot) (i i' : Byte) (v : Byte) :
    (s.memWrite (tableAddr slot i) v).entryAt slot' i'
      = if slot' = slot ∧ i' = i then v else s.entryAt slot' i' := by
  simp only [State.entryAt, State.memRead, State.memWrite, Memory.read_write, tableAddr_inj]

end Sys2Proof.Machine
end

