-- ==== Sys2Proof/Laws/Ops.lean ====
section
/-! SUPPORT. One lemma per shared operation that says what it can do: the enabling conditions, the
rows and bits of the matrix, the sets of coordinates and of unmapped codes. -/

namespace Sys2Proof.Machine

/-! ### Enabling -/

theorem State.idleAt_iff (s : State) (p : Phase) :
    s.idleAt p = true ↔ s.phase = p ∧ s.inIsr = false := by
  simp [State.idleAt]

theorem State.canServe_iff (s : State) :
    s.canServe = true ↔ s.ie = true ∧ s.pend = true ∧ s.inIsr = false := by
  simp [State.canServe, and_assoc]

/-- `whenever` answers next only where its condition holds, and then the state it was given. -/
theorem whenever_eq_next {cond : Bool} {i : Instr} {t u : State} :
    whenever cond i t = .next u ↔ cond = true ∧ t = u := by
  unfold whenever
  split <;> simp_all

/-- `idleStep` answers next only at its phase and outside a service. -/
theorem idleStep_eq_next {i : Instr} {p : Phase} {s t u : State} :
    idleStep i p s t = .next u ↔ (s.phase = p ∧ s.inIsr = false) ∧ t = u := by
  rw [idleStep, whenever_eq_next, State.idleAt_iff]

/-! ### Matrix -/

theorem ScanMatrix.row_lt (m : ScanMatrix) {r : Nat} (h : r < 8) : ScanMatrix.row m r = m[r] := by
  simp [ScanMatrix.row, h]

theorem ScanMatrix.row_ge (m : ScanMatrix) {r : Nat} (h : 8 ≤ r) : ScanMatrix.row m r = 0 := by
  simp [ScanMatrix.row, h]

theorem ScanMatrix.row_clear (r : Nat) : ScanMatrix.row ScanMatrix.clear r = 0 := by
  by_cases h : r < 8
  · simp [ScanMatrix.row_lt _ h, ScanMatrix.clear]
  · exact ScanMatrix.row_ge _ (by omega)

theorem ScanMatrix.row_setbit (m : ScanMatrix) (p : Coord) {r : Nat} (h : r < 8) :
    ScanMatrix.row (ScanMatrix.setbit m p) r
      = if r = p.r then ScanMatrix.row m r ||| (1#8 <<< p.b) else ScanMatrix.row m r := by
  rw [ScanMatrix.row_lt _ h, ScanMatrix.setbit, Vector.getElem_setIfInBounds h]
  by_cases hr : r = p.r
  · subst hr; simp
  · simp [hr, Ne.symm hr, ScanMatrix.row_lt _ h]

/-- Two matrices with the same rows are equal. -/
theorem ScanMatrix.ext_row {m m' : ScanMatrix}
    (h : ∀ r, r < 8 → ScanMatrix.row m r = ScanMatrix.row m' r) : m = m' := by
  apply Vector.ext
  intro r hr
  simpa [ScanMatrix.row_lt _ hr] using h r hr

/-- A bit outside the 8 rows of 8 bits reads as 0. -/
theorem ScanMatrix.bit_lt {m : ScanMatrix} {p : Coord} (h : ScanMatrix.bit m p = true) :
    p.r < 8 ∧ p.b < 8 := by
  constructor
  · by_contra hr
    simp [ScanMatrix.bit, ScanMatrix.row_ge m (show 8 ≤ p.r by omega)] at h
  · exact BitVec.lt_of_getLsbD h

/-- Two matrices with the same bits are equal. -/
theorem ScanMatrix.ext_bit {m m' : ScanMatrix}
    (h : ∀ p : Coord, p.r < 8 → p.b < 8 → ScanMatrix.bit m p = ScanMatrix.bit m' p) : m = m' := by
  apply ScanMatrix.ext_row
  intro r hr
  apply BitVec.eq_of_getLsbD_eq
  intro b hb
  exact h ⟨r, b⟩ hr hb

theorem ScanMatrix.bit_clear (p : Coord) : ScanMatrix.bit ScanMatrix.clear p = false := by
  simp [ScanMatrix.bit, ScanMatrix.row_clear]

/-- `setbit` sets its own bit and changes no other (40_matrix_builder.md R111). -/
theorem ScanMatrix.bit_setbit (m : ScanMatrix) (p q : Coord) (hr : q.r < 8) (hb : q.b < 8) :
    ScanMatrix.bit (ScanMatrix.setbit m p) q = true ↔ ScanMatrix.bit m q = true ∨ q = p := by
  have hq : q = p ↔ q.r = p.r ∧ q.b = p.b := by
    cases q; cases p; simp
  rw [ScanMatrix.bit, ScanMatrix.row_setbit m p hr, hq]
  by_cases h : q.r = p.r
  · simp only [h, if_true, BitVec.getLsbD_or, BitVec.getLsbD_shiftLeft, BitVec.getLsbD_one,
      Bool.or_eq_true, true_and, ScanMatrix.bit]
    constructor
    · rintro (h1 | h2)
      · exact .inl h1
      · right
        simp at h2
        omega
    · rintro (h1 | h2)
      · exact .inl h1
      · right
        simp [← h2, hb]
  · simp [h, ScanMatrix.bit]

theorem setbits_cons (m : ScanMatrix) (p : Coord) (ps : List Coord) :
    setbits m (p :: ps) = setbits (ScanMatrix.setbit m p) ps := rfl

/-- `setbits` sets the bits of its list and changes no other. -/
theorem bit_setbits (ps : List Coord) (m : ScanMatrix) (q : Coord) (hr : q.r < 8) (hb : q.b < 8) :
    ScanMatrix.bit (setbits m ps) q = true ↔ ScanMatrix.bit m q = true ∨ q ∈ ps := by
  induction ps generalizing m with
  | nil => simp [setbits]
  | cons p ps ih =>
    rw [setbits_cons, ih, ScanMatrix.bit_setbit m p q hr hb, List.mem_cons, or_assoc]

theorem mem_forcedPos {cfg : Config} {caps sym : Bool} {p : Coord} :
    p ∈ forcedPos cfg caps sym ↔ (caps = true ∧ p = cfg.capsPos) ∨ (sym = true ∧ p = cfg.symPos) := by
  cases caps <;> cases sym <;> simp [forcedPos]

/-! ### Unmapped codes -/

theorem mem_insertCode {c d : Code} {u : List Code} : d ∈ insertCode c u ↔ d = c ∨ d ∈ u := by
  induction u with
  | nil => simp [insertCode]
  | cons e rest ih =>
    simp only [insertCode]
    split
    · simp
    · split
      · next h => subst h; simp
      · simp only [List.mem_cons, ih]; tauto

/-- The unmapped codes stay in increasing order without repeats (40_matrix_builder.md R118). -/
theorem sorted_insertCode {c : Code} {u : List Code} (h : u.Pairwise (· < ·)) :
    (insertCode c u).Pairwise (· < ·) := by
  induction u with
  | nil => simp [insertCode]
  | cons e rest ih =>
    rw [List.pairwise_cons] at h
    simp only [insertCode]
    split
    · next hlt =>
      refine List.pairwise_cons.2 ⟨?_, List.pairwise_cons.2 h⟩
      intro d hd
      rcases List.mem_cons.1 hd with rfl | hd
      · exact hlt
      · exact Nat.lt_trans hlt (h.1 d hd)
    · split
      · exact List.pairwise_cons.2 h
      · next hnlt hne =>
        refine List.pairwise_cons.2 ⟨?_, ih h.2⟩
        intro d hd
        rcases mem_insertCode.1 hd with rfl | hd
        · exact lt_of_le_of_ne (not_lt.1 hnlt) (Ne.symm hne)
        · exact h.1 d hd

end Sys2Proof.Machine
end

