-- ==== Sys2Proof/Laws/State.lean ====
section
/-! SUPPORT. One lemma per field per named update of the state: what the update puts there, or that
it leaves the field alone. -/

namespace Sys2Proof.Machine

variable (s : State)

/-! ### State.memWrite -/

@[simp] theorem State.cfg_memWrite (addr : Addr) (v : Byte) : (s.memWrite addr v).cfg = s.cfg := rfl
@[simp] theorem State.tbl_memWrite (addr : Addr) (v : Byte) :
    (s.memWrite addr v).tbl = Memory.write s.tbl addr.toNat v := rfl
@[simp] theorem State.act_memWrite (addr : Addr) (v : Byte) : (s.memWrite addr v).act = s.act := rfl
@[simp] theorem State.mode_memWrite (addr : Addr) (v : Byte) :
    (s.memWrite addr v).mode = s.mode := rfl
@[simp] theorem State.pend_memWrite (addr : Addr) (v : Byte) :
    (s.memWrite addr v).pend = s.pend := rfl
@[simp] theorem State.ie_memWrite (addr : Addr) (v : Byte) : (s.memWrite addr v).ie = s.ie := rfl
@[simp] theorem State.inIsr_memWrite (addr : Addr) (v : Byte) :
    (s.memWrite addr v).inIsr = s.inIsr := rfl
@[simp] theorem State.out_memWrite (addr : Addr) (v : Byte) : (s.memWrite addr v).out = s.out := rfl
@[simp] theorem State.led_memWrite (addr : Addr) (v : Byte) : (s.memWrite addr v).led = s.led := rfl
@[simp] theorem State.rst_memWrite (addr : Addr) (v : Byte) : (s.memWrite addr v).rst = s.rst := rfl
@[simp] theorem State.mag_memWrite (addr : Addr) (v : Byte) : (s.memWrite addr v).mag = s.mag := rfl
@[simp] theorem State.phase_memWrite (addr : Addr) (v : Byte) :
    (s.memWrite addr v).phase = s.phase := rfl
@[simp] theorem State.cidx_memWrite (addr : Addr) (v : Byte) :
    (s.memWrite addr v).cidx = s.cidx := rfl
@[simp] theorem State.snap_memWrite (addr : Addr) (v : Byte) :
    (s.memWrite addr v).snap = s.snap := rfl
@[simp] theorem State.matrix_memWrite (addr : Addr) (v : Byte) :
    (s.memWrite addr v).matrix = s.matrix := rfl
@[simp] theorem State.rstReq_memWrite (addr : Addr) (v : Byte) :
    (s.memWrite addr v).rstReq = s.rstReq := rfl
@[simp] theorem State.magReq_memWrite (addr : Addr) (v : Byte) :
    (s.memWrite addr v).magReq = s.magReq := rfl
@[simp] theorem State.monPrev_memWrite (addr : Addr) (v : Byte) :
    (s.memWrite addr v).monPrev = s.monPrev := rfl
@[simp] theorem State.selIn_memWrite (addr : Addr) (v : Byte) :
    (s.memWrite addr v).selIn = s.selIn := rfl
@[simp] theorem State.monIn_memWrite (addr : Addr) (v : Byte) :
    (s.memWrite addr v).monIn = s.monIn := rfl
@[simp] theorem State.events_memWrite (addr : Addr) (v : Byte) :
    (s.memWrite addr v).events = s.events := rfl
@[simp] theorem State.usb_memWrite (addr : Addr) (v : Byte) : (s.memWrite addr v).usb = s.usb := rfl
@[simp] theorem State.sched_memWrite (addr : Addr) (v : Byte) :
    (s.memWrite addr v).sched = s.sched := rfl
@[simp] theorem State.draws_memWrite (addr : Addr) (v : Byte) :
    (s.memWrite addr v).draws = s.draws := rfl

/-! ### State.compileAdvance -/

@[simp] theorem State.cfg_compileAdvance (S : Byte) : (s.compileAdvance S).cfg = s.cfg := rfl
@[simp] theorem State.tbl_compileAdvance (S : Byte) : (s.compileAdvance S).tbl = s.tbl := rfl
@[simp] theorem State.act_compileAdvance (S : Byte) : (s.compileAdvance S).act = s.act := rfl
@[simp] theorem State.mode_compileAdvance (S : Byte) : (s.compileAdvance S).mode = s.mode := rfl
@[simp] theorem State.pend_compileAdvance (S : Byte) : (s.compileAdvance S).pend = s.pend := rfl
@[simp] theorem State.ie_compileAdvance (S : Byte) : (s.compileAdvance S).ie = s.ie := rfl
@[simp] theorem State.inIsr_compileAdvance (S : Byte) : (s.compileAdvance S).inIsr = s.inIsr := rfl
@[simp] theorem State.out_compileAdvance (S : Byte) : (s.compileAdvance S).out = s.out := rfl
@[simp] theorem State.led_compileAdvance (S : Byte) : (s.compileAdvance S).led = s.led := rfl
@[simp] theorem State.rst_compileAdvance (S : Byte) : (s.compileAdvance S).rst = s.rst := rfl
@[simp] theorem State.mag_compileAdvance (S : Byte) : (s.compileAdvance S).mag = s.mag := rfl
@[simp] theorem State.phase_compileAdvance (S : Byte) :
    (s.compileAdvance S).phase = if S = 0xFF#8 then .publish else s.phase := rfl
@[simp] theorem State.cidx_compileAdvance (S : Byte) :
    (s.compileAdvance S).cidx = if S = 0xFF#8 then s.cidx else S + 1 := rfl
@[simp] theorem State.snap_compileAdvance (S : Byte) : (s.compileAdvance S).snap = s.snap := rfl
@[simp] theorem State.matrix_compileAdvance (S : Byte) :
    (s.compileAdvance S).matrix = s.matrix := rfl
@[simp] theorem State.rstReq_compileAdvance (S : Byte) :
    (s.compileAdvance S).rstReq = s.rstReq := rfl
@[simp] theorem State.magReq_compileAdvance (S : Byte) :
    (s.compileAdvance S).magReq = s.magReq := rfl
@[simp] theorem State.monPrev_compileAdvance (S : Byte) :
    (s.compileAdvance S).monPrev = s.monPrev := rfl
@[simp] theorem State.selIn_compileAdvance (S : Byte) : (s.compileAdvance S).selIn = s.selIn := rfl
@[simp] theorem State.monIn_compileAdvance (S : Byte) : (s.compileAdvance S).monIn = s.monIn := rfl
@[simp] theorem State.events_compileAdvance (S : Byte) :
    (s.compileAdvance S).events = s.events := rfl
@[simp] theorem State.usb_compileAdvance (S : Byte) : (s.compileAdvance S).usb = s.usb := rfl
@[simp] theorem State.sched_compileAdvance (S : Byte) : (s.compileAdvance S).sched = s.sched := rfl
@[simp] theorem State.draws_compileAdvance (S : Byte) : (s.compileAdvance S).draws = s.draws := rfl

/-! ### State.enterService -/

@[simp] theorem State.cfg_enterService : (s.enterService).cfg = s.cfg := rfl
@[simp] theorem State.tbl_enterService : (s.enterService).tbl = s.tbl := rfl
@[simp] theorem State.act_enterService : (s.enterService).act = s.act := rfl
@[simp] theorem State.mode_enterService : (s.enterService).mode = s.mode := rfl
@[simp] theorem State.pend_enterService : (s.enterService).pend = s.pend := rfl
@[simp] theorem State.ie_enterService : (s.enterService).ie = s.ie := rfl
@[simp] theorem State.inIsr_enterService : (s.enterService).inIsr = true := rfl
@[simp] theorem State.out_enterService : (s.enterService).out = s.entryAt s.act s.selIn := rfl
@[simp] theorem State.led_enterService : (s.enterService).led = s.led := rfl
@[simp] theorem State.rst_enterService : (s.enterService).rst = s.rst := rfl
@[simp] theorem State.mag_enterService : (s.enterService).mag = s.mag := rfl
@[simp] theorem State.phase_enterService : (s.enterService).phase = s.phase := rfl
@[simp] theorem State.cidx_enterService : (s.enterService).cidx = s.cidx := rfl
@[simp] theorem State.snap_enterService : (s.enterService).snap = s.snap := rfl
@[simp] theorem State.matrix_enterService : (s.enterService).matrix = s.matrix := rfl
@[simp] theorem State.rstReq_enterService : (s.enterService).rstReq = s.rstReq := rfl
@[simp] theorem State.magReq_enterService : (s.enterService).magReq = s.magReq := rfl
@[simp] theorem State.monPrev_enterService : (s.enterService).monPrev = s.monPrev := rfl
@[simp] theorem State.selIn_enterService : (s.enterService).selIn = s.selIn := rfl
@[simp] theorem State.monIn_enterService : (s.enterService).monIn = s.monIn := rfl
@[simp] theorem State.events_enterService : (s.enterService).events = s.events := rfl
@[simp] theorem State.usb_enterService : (s.enterService).usb = s.usb := rfl
@[simp] theorem State.sched_enterService : (s.enterService).sched = s.sched := rfl
@[simp] theorem State.draws_enterService : (s.enterService).draws = s.draws := rfl

/-! ### State.leaveService -/

@[simp] theorem State.cfg_leaveService : (s.leaveService).cfg = s.cfg := rfl
@[simp] theorem State.tbl_leaveService : (s.leaveService).tbl = s.tbl := rfl
@[simp] theorem State.act_leaveService : (s.leaveService).act = s.act := rfl
@[simp] theorem State.mode_leaveService : (s.leaveService).mode = s.mode := rfl
@[simp] theorem State.pend_leaveService : (s.leaveService).pend = false := rfl
@[simp] theorem State.ie_leaveService : (s.leaveService).ie = s.ie := rfl
@[simp] theorem State.inIsr_leaveService : (s.leaveService).inIsr = false := rfl
@[simp] theorem State.out_leaveService : (s.leaveService).out = s.out := rfl
@[simp] theorem State.led_leaveService : (s.leaveService).led = s.led := rfl
@[simp] theorem State.rst_leaveService : (s.leaveService).rst = s.rst := rfl
@[simp] theorem State.mag_leaveService : (s.leaveService).mag = s.mag := rfl
@[simp] theorem State.phase_leaveService : (s.leaveService).phase = s.phase := rfl
@[simp] theorem State.cidx_leaveService : (s.leaveService).cidx = s.cidx := rfl
@[simp] theorem State.snap_leaveService : (s.leaveService).snap = s.snap := rfl
@[simp] theorem State.matrix_leaveService : (s.leaveService).matrix = s.matrix := rfl
@[simp] theorem State.rstReq_leaveService : (s.leaveService).rstReq = s.rstReq := rfl
@[simp] theorem State.magReq_leaveService : (s.leaveService).magReq = s.magReq := rfl
@[simp] theorem State.monPrev_leaveService : (s.leaveService).monPrev = s.monPrev := rfl
@[simp] theorem State.selIn_leaveService : (s.leaveService).selIn = s.selIn := rfl
@[simp] theorem State.monIn_leaveService : (s.leaveService).monIn = s.monIn := rfl
@[simp] theorem State.events_leaveService : (s.leaveService).events = s.events := rfl
@[simp] theorem State.usb_leaveService : (s.leaveService).usb = s.usb := rfl
@[simp] theorem State.sched_leaveService : (s.leaveService).sched = s.sched := rfl
@[simp] theorem State.draws_leaveService : (s.leaveService).draws = s.draws := rfl

/-! ### State.withBuilt -/

@[simp] theorem State.cfg_withBuilt (b : Built) : (s.withBuilt b).cfg = s.cfg := rfl
@[simp] theorem State.tbl_withBuilt (b : Built) : (s.withBuilt b).tbl = s.tbl := rfl
@[simp] theorem State.act_withBuilt (b : Built) : (s.withBuilt b).act = s.act := rfl
@[simp] theorem State.mode_withBuilt (b : Built) : (s.withBuilt b).mode = s.mode := rfl
@[simp] theorem State.pend_withBuilt (b : Built) : (s.withBuilt b).pend = s.pend := rfl
@[simp] theorem State.ie_withBuilt (b : Built) : (s.withBuilt b).ie = s.ie := rfl
@[simp] theorem State.inIsr_withBuilt (b : Built) : (s.withBuilt b).inIsr = s.inIsr := rfl
@[simp] theorem State.out_withBuilt (b : Built) : (s.withBuilt b).out = s.out := rfl
@[simp] theorem State.led_withBuilt (b : Built) : (s.withBuilt b).led = s.led := rfl
@[simp] theorem State.rst_withBuilt (b : Built) : (s.withBuilt b).rst = s.rst := rfl
@[simp] theorem State.mag_withBuilt (b : Built) : (s.withBuilt b).mag = s.mag := rfl
@[simp] theorem State.phase_withBuilt (b : Built) : (s.withBuilt b).phase = .latch := rfl
@[simp] theorem State.cidx_withBuilt (b : Built) : (s.withBuilt b).cidx = s.cidx := rfl
@[simp] theorem State.snap_withBuilt (b : Built) : (s.withBuilt b).snap = s.snap := rfl
@[simp] theorem State.matrix_withBuilt (b : Built) : (s.withBuilt b).matrix = b.matrix := rfl
@[simp] theorem State.rstReq_withBuilt (b : Built) : (s.withBuilt b).rstReq = b.rstReq := rfl
@[simp] theorem State.magReq_withBuilt (b : Built) : (s.withBuilt b).magReq = b.magReq := rfl
@[simp] theorem State.monPrev_withBuilt (b : Built) : (s.withBuilt b).monPrev = s.monPrev := rfl
@[simp] theorem State.selIn_withBuilt (b : Built) : (s.withBuilt b).selIn = s.selIn := rfl
@[simp] theorem State.monIn_withBuilt (b : Built) : (s.withBuilt b).monIn = s.monIn := rfl
@[simp] theorem State.events_withBuilt (b : Built) :
    (s.withBuilt b).events = s.events ++ b.unmapped.map Event.unmapped := rfl
@[simp] theorem State.usb_withBuilt (b : Built) : (s.withBuilt b).usb = s.usb := rfl
@[simp] theorem State.sched_withBuilt (b : Built) : (s.withBuilt b).sched = s.sched := rfl
@[simp] theorem State.draws_withBuilt (b : Built) : (s.withBuilt b).draws = s.draws := rfl

/-! ### State.polled -/

@[simp] theorem State.cfg_polled : (s.polled).cfg = s.cfg := rfl
@[simp] theorem State.tbl_polled : (s.polled).tbl = s.tbl := rfl
@[simp] theorem State.act_polled : (s.polled).act = s.act := rfl
@[simp] theorem State.mode_polled : (s.polled).mode = s.mode := rfl
@[simp] theorem State.pend_polled : (s.polled).pend = s.pend := rfl
@[simp] theorem State.ie_polled : (s.polled).ie = s.ie := rfl
@[simp] theorem State.inIsr_polled : (s.polled).inIsr = s.inIsr := rfl
@[simp] theorem State.out_polled : (s.polled).out = s.out := rfl
@[simp] theorem State.led_polled : (s.polled).led = s.led := rfl
@[simp] theorem State.rst_polled : (s.polled).rst = s.rst := rfl
@[simp] theorem State.mag_polled : (s.polled).mag = s.mag := rfl
@[simp] theorem State.phase_polled : (s.polled).phase = .build := rfl
@[simp] theorem State.cidx_polled : (s.polled).cidx = s.cidx := rfl
@[simp] theorem State.snap_polled : (s.polled).snap = s.answer := rfl
@[simp] theorem State.matrix_polled : (s.polled).matrix = s.matrix := rfl
@[simp] theorem State.rstReq_polled : (s.polled).rstReq = s.rstReq := rfl
@[simp] theorem State.magReq_polled : (s.polled).magReq = s.magReq := rfl
@[simp] theorem State.monPrev_polled : (s.polled).monPrev = s.monPrev := rfl
@[simp] theorem State.selIn_polled : (s.polled).selIn = s.selIn := rfl
@[simp] theorem State.monIn_polled : (s.polled).monIn = s.monIn := rfl
@[simp] theorem State.events_polled : (s.polled).events = s.events := rfl
@[simp] theorem State.usb_polled : (s.polled).usb = s.usb.tail := rfl
@[simp] theorem State.sched_polled : (s.polled).sched = s.sched := rfl
@[simp] theorem State.draws_polled :
    (s.polled).draws = if s.usb = [] then s.draws + 1 else s.draws := rfl

/-! ### State.platformReset -/

section
variable (s : State) (o S : Byte) (m : Bool)

@[simp] theorem State.cfg_platformReset :
    (s.platformReset o S m).cfg = s.cfg := rfl
@[simp] theorem State.tbl_platformReset :
    (s.platformReset o S m).tbl = [] := rfl
@[simp] theorem State.act_platformReset :
    (s.platformReset o S m).act = 0 := rfl
@[simp] theorem State.mode_platformReset :
    (s.platformReset o S m).mode = false := rfl
@[simp] theorem State.pend_platformReset :
    (s.platformReset o S m).pend = false := rfl
@[simp] theorem State.ie_platformReset :
    (s.platformReset o S m).ie = false := rfl
@[simp] theorem State.inIsr_platformReset :
    (s.platformReset o S m).inIsr = false := rfl
@[simp] theorem State.out_platformReset :
    (s.platformReset o S m).out = o := rfl
@[simp] theorem State.led_platformReset :
    (s.platformReset o S m).led = false := rfl
@[simp] theorem State.rst_platformReset :
    (s.platformReset o S m).rst = false := rfl
@[simp] theorem State.mag_platformReset :
    (s.platformReset o S m).mag = false := rfl
@[simp] theorem State.phase_platformReset :
    (s.platformReset o S m).phase = .init := rfl
@[simp] theorem State.cidx_platformReset :
    (s.platformReset o S m).cidx = 0 := rfl
@[simp] theorem State.snap_platformReset :
    (s.platformReset o S m).snap = ⟨0, List.replicate s.cfg.nKeys (s.cfg.code s.cfg.emptyCode)⟩ := rfl
@[simp] theorem State.matrix_platformReset :
    (s.platformReset o S m).matrix = ScanMatrix.clear := rfl
@[simp] theorem State.rstReq_platformReset :
    (s.platformReset o S m).rstReq = false := rfl
@[simp] theorem State.magReq_platformReset :
    (s.platformReset o S m).magReq = false := rfl
@[simp] theorem State.monPrev_platformReset :
    (s.platformReset o S m).monPrev = none := rfl
@[simp] theorem State.selIn_platformReset :
    (s.platformReset o S m).selIn = S := rfl
@[simp] theorem State.monIn_platformReset :
    (s.platformReset o S m).monIn = m := rfl
@[simp] theorem State.events_platformReset :
    (s.platformReset o S m).events = [] := rfl
@[simp] theorem State.usb_platformReset :
    (s.platformReset o S m).usb = s.usb := rfl
@[simp] theorem State.sched_platformReset :
    (s.platformReset o S m).sched = s.sched := rfl
@[simp] theorem State.draws_platformReset :
    (s.platformReset o S m).draws = s.draws := rfl
end

end Sys2Proof.Machine
end

