-- ==== Sys2Proof/Laws/Exec.lean ====
section
/-! SUPPORT. What each operation can do, said once: the condition under which it answers a next state,
and that state. Invariants are derived from these by `cases i`. -/

namespace Sys2Proof.Machine

variable {s t : State} {S : Byte} {m : Bool}

theorem exec_init_next : exec .init s = .next t ↔
    (s.phase = .init ∧ s.inIsr = false) ∧ { s with ie := true, phase := .poll } = t :=
  idleStep_eq_next

theorem exec_pollData_next : exec .pollData s = .next t ↔
    (s.phase = .poll ∧ s.inIsr = false) ∧ s.polled = t :=
  idleStep_eq_next

theorem exec_pollNodata_next : exec .pollNodata s = .next t ↔
    (s.phase = .poll ∧ s.inIsr = false) ∧
      { s with rstReq := nodataRstReq s.cfg s.rst, magReq := false, phase := .rst } = t :=
  idleStep_eq_next

theorem exec_build_next : exec .build s = .next t ↔
    (s.phase = .build ∧ s.inIsr = false) ∧
      s.withBuilt (buildOf s.cfg s.mode s.snap) = t :=
  idleStep_eq_next

theorem exec_latch_next : exec .latch s = .next t ↔
    (s.phase = .latch ∧ s.inIsr = false) ∧
      { s with mode := latchedMode s.cfg s.matrix s.mode, cidx := 0, phase := .compile } = t :=
  idleStep_eq_next

theorem exec_centry_next : exec (.centry S) s = .next t ↔
    (s.phase = .compile ∧ s.inIsr = false ∧ S = s.cidx) ∧
      (s.memWrite (tableAddr s.inactive S) (entry s.matrix S)).compileAdvance S = t := by
  show whenever _ _ _ = _ ↔ _
  rw [whenever_eq_next, Bool.and_eq_true, State.idleAt_iff, decide_eq_true_eq]
  simp only [and_assoc]

theorem exec_publish_next : exec .publish s = .next t ↔
    (s.phase = .publish ∧ s.inIsr = false) ∧ { s with act := s.inactive, phase := .led } = t :=
  idleStep_eq_next

theorem exec_ledupd_next : exec .ledupd s = .next t ↔
    (s.phase = .led ∧ s.inIsr = false) ∧
      { s with led := ledOf (s.entryAt s.act 0x00#8), phase := .rst } = t :=
  idleStep_eq_next

theorem exec_rstupd_next : exec .rstupd s = .next t ↔
    (s.phase = .rst ∧ s.inIsr = false) ∧
      { s with rst := s.rstReq, phase := if s.magReq then .magDi else .poll } = t :=
  idleStep_eq_next

theorem exec_magDi_next : exec .magDi s = .next t ↔
    (s.phase = .magDi ∧ s.inIsr = false) ∧
      { s with ie := false, monPrev := none, phase := .magRise } = t :=
  idleStep_eq_next

theorem exec_magWrise_next : exec .magWrise s = .next t ↔
    (s.phase = .magRise ∧ s.inIsr = false) ∧
      { s with
        phase := if sawRise s.monPrev s.monIn then .magFall else .magRise
        monPrev := some s.monIn } = t :=
  idleStep_eq_next

theorem exec_magWfall_next : exec .magWfall s = .next t ↔
    (s.phase = .magFall ∧ s.inIsr = false) ∧
      { s with
        phase := if sawFall s.monPrev s.monIn then .magAssert else .magFall
        monPrev := some s.monIn } = t :=
  idleStep_eq_next

theorem exec_magAssert_next : exec .magAssert s = .next t ↔
    (s.phase = .magAssert ∧ s.inIsr = false) ∧ { s with mag := true, phase := .magHold } = t :=
  idleStep_eq_next

theorem exec_magHold_next : exec .magHold s = .next t ↔
    (s.phase = .magHold ∧ s.inIsr = false) ∧ { s with phase := .magRel } = t :=
  idleStep_eq_next

theorem exec_magRel_next : exec .magRel s = .next t ↔
    (s.phase = .magRel ∧ s.inIsr = false) ∧ { s with mag := false, phase := .magEi } = t :=
  idleStep_eq_next

theorem exec_magEi_next : exec .magEi s = .next t ↔
    (s.phase = .magEi ∧ s.inIsr = false) ∧ { s with ie := true, phase := .poll } = t :=
  idleStep_eq_next

theorem exec_edge_next : exec .edge s = .next t ↔ { s with pend := true } = t := by
  show Host.Outcome.next _ = _ ↔ _
  rw [Host.Outcome.next.injEq]

theorem exec_isrRun_next : exec (.isrRun S) s = .next t ↔
    ((s.ie = true ∧ s.pend = true ∧ s.inIsr = false) ∧ S = s.selIn) ∧ s.enterService = t := by
  show whenever _ _ _ = _ ↔ _
  rw [whenever_eq_next, Bool.and_eq_true, State.canServe_iff, decide_eq_true_eq]

theorem exec_isrClr_next : exec .isrClr s = .next t ↔ s.inIsr = true ∧ s.leaveService = t :=
  whenever_eq_next

theorem exec_hostsel_next : exec (.hostsel S) s = .next t ↔ { s with selIn := S } = t := by
  show Host.Outcome.next _ = _ ↔ _
  rw [Host.Outcome.next.injEq]

theorem exec_hostmon_next : exec (.hostmon m) s = .next t ↔ { s with monIn := m } = t := by
  show Host.Outcome.next _ = _ ↔ _
  rw [Host.Outcome.next.injEq]

/-- The slot CENTRY writes and PUBLISH activates (10_state.md R21). -/
theorem State.inactive_eq (s : State) : s.inactive = 1 - s.act := rfl

/-- An entry after a CENTRY. -/
theorem State.entryAt_centry (s : State) (S : Byte) (v : Byte) (slot : Slot) (i : Byte) :
    ((s.memWrite (tableAddr s.inactive S) v).compileAdvance S).entryAt slot i
      = if slot = 1 - s.act ∧ i = S then v else s.entryAt slot i :=
  State.entryAt_memWrite s _ slot S i v

/-- Everything a step of any operation can be. -/
theorem exec_cases {i : Instr} {s t : State} (h : exec i s = .next t) :
    (i = .init ∧ s.phase = .init ∧ s.inIsr = false ∧ t = { s with ie := true, phase := .poll }) ∨
    (i = .pollData ∧ s.phase = .poll ∧ s.inIsr = false ∧ t = s.polled) ∨
    (i = .pollNodata ∧ s.phase = .poll ∧ s.inIsr = false ∧
      t = { s with rstReq := nodataRstReq s.cfg s.rst, magReq := false, phase := .rst }) ∨
    (i = .build ∧ s.phase = .build ∧ s.inIsr = false ∧
      t = s.withBuilt (buildOf s.cfg s.mode s.snap)) ∨
    (i = .latch ∧ s.phase = .latch ∧ s.inIsr = false ∧
      t = { s with mode := latchedMode s.cfg s.matrix s.mode, cidx := 0, phase := .compile }) ∨
    (∃ S, i = .centry S ∧ s.phase = .compile ∧ s.inIsr = false ∧ S = s.cidx ∧
      t = (s.memWrite (tableAddr s.inactive S) (entry s.matrix S)).compileAdvance S) ∨
    (i = .publish ∧ s.phase = .publish ∧ s.inIsr = false ∧
      t = { s with act := s.inactive, phase := .led }) ∨
    (i = .ledupd ∧ s.phase = .led ∧ s.inIsr = false ∧
      t = { s with led := ledOf (s.entryAt s.act 0x00#8), phase := .rst }) ∨
    (i = .rstupd ∧ s.phase = .rst ∧ s.inIsr = false ∧
      t = { s with rst := s.rstReq, phase := if s.magReq then .magDi else .poll }) ∨
    (i = .magDi ∧ s.phase = .magDi ∧ s.inIsr = false ∧
      t = { s with ie := false, monPrev := none, phase := .magRise }) ∨
    (i = .magWrise ∧ s.phase = .magRise ∧ s.inIsr = false ∧
      t = { s with
        phase := if sawRise s.monPrev s.monIn then .magFall else .magRise
        monPrev := some s.monIn }) ∨
    (i = .magWfall ∧ s.phase = .magFall ∧ s.inIsr = false ∧
      t = { s with
        phase := if sawFall s.monPrev s.monIn then .magAssert else .magFall
        monPrev := some s.monIn }) ∨
    (i = .magAssert ∧ s.phase = .magAssert ∧ s.inIsr = false ∧
      t = { s with mag := true, phase := .magHold }) ∨
    (i = .magHold ∧ s.phase = .magHold ∧ s.inIsr = false ∧ t = { s with phase := .magRel }) ∨
    (i = .magRel ∧ s.phase = .magRel ∧ s.inIsr = false ∧
      t = { s with mag := false, phase := .magEi }) ∨
    (i = .magEi ∧ s.phase = .magEi ∧ s.inIsr = false ∧
      t = { s with ie := true, phase := .poll }) ∨
    (i = .edge ∧ t = { s with pend := true }) ∨
    (∃ S, i = .isrRun S ∧ s.ie = true ∧ s.pend = true ∧ s.inIsr = false ∧ S = s.selIn ∧
      t = s.enterService) ∨
    (i = .isrClr ∧ s.inIsr = true ∧ t = s.leaveService) ∨
    (∃ S, i = .hostsel S ∧ t = { s with selIn := S }) ∨
    ∃ m, i = .hostmon m ∧ t = { s with monIn := m } := by
  cases i <;>
    simp only [exec_init_next, exec_pollData_next, exec_pollNodata_next, exec_build_next,
      exec_latch_next, exec_centry_next, exec_publish_next, exec_ledupd_next, exec_rstupd_next,
      exec_magDi_next, exec_magWrise_next, exec_magWfall_next, exec_magAssert_next,
      exec_magHold_next, exec_magRel_next, exec_magEi_next, exec_edge_next, exec_isrRun_next,
      exec_isrClr_next, exec_hostsel_next, exec_hostmon_next, and_assoc] at h <;>
    first
    | (obtain ⟨h1, h2, rfl⟩ := h; simp [h1, h2])
    | (obtain ⟨h1, h2, h3, rfl⟩ := h; simp [h1, h2, h3])
    | (obtain ⟨h1, h2, h3, h4, rfl⟩ := h; simp [h1, h2, h3, h4])
    | (obtain ⟨h1, rfl⟩ := h; simp [h1])
    | (obtain rfl := h; simp)

end Sys2Proof.Machine
end

