-- ==== Sys2Proof/Laws/Operands.lean ====
section
/-! SUPPORT. What fitting and drawing a snapshot can give, said once. -/

namespace Sys2Proof

/-- A code of the configuration has CODE_WIDTH bits. -/
theorem Config.code_lt (cfg : Config) (n : Nat) : cfg.code n < 2 ^ cfg.codeWidth :=
  Nat.mod_lt _ (Nat.two_pow_pos _)

/-- A number of CODE_WIDTH bits stands for itself. -/
theorem Config.code_of_lt {cfg : Config} {n : Nat} (h : n < 2 ^ cfg.codeWidth) : cfg.code n = n :=
  Nat.mod_eq_of_lt h

end Sys2Proof

namespace Sys2Proof.Machine

/-- A well-formed snapshot is taken as it is (10_state.md R33). -/
theorem fitSnapshot_of_wf {cfg : Config} {sn : Snapshot} (h : sn.wf cfg = true) :
    fitSnapshot cfg sn = sn := by
  obtain ⟨mods, codes⟩ := sn
  simp only [Snapshot.wf, Bool.and_eq_true, beq_iff_eq, List.all_eq_true, decide_eq_true_eq] at h
  obtain ⟨hlen, hcodes⟩ := h
  have hmap : codes.map cfg.code = codes :=
    (List.map_congr_left fun c hc => Config.code_of_lt (hcodes c hc)).trans (List.map_id codes)
  simp [fitSnapshot, ← hlen, hmap]

theorem wf_fitSnapshot (cfg : Config) (sn : Snapshot) : (fitSnapshot cfg sn).wf cfg = true := by
  have hlen : min cfg.nKeys sn.codes.length + (cfg.nKeys - sn.codes.length) = cfg.nKeys := by omega
  simp only [Snapshot.wf, fitSnapshot, Bool.and_eq_true, beq_iff_eq, List.all_eq_true,
    List.forall_mem_map, decide_eq_true_eq]
  exact ⟨by simpa using hlen, fun c _ => Config.code_lt cfg c⟩

theorem wf_freeSnapshot (cfg : Config) (n : Nat) : (freeSnapshot cfg n).wf cfg = true := by
  simp only [Snapshot.wf, freeSnapshot, Bool.and_eq_true, beq_iff_eq, List.all_eq_true,
    List.forall_mem_map, decide_eq_true_eq]
  exact ⟨by simp, fun j _ => Config.code_lt cfg _⟩

/-- Whatever the collaborator answers, a POLL with data takes a snapshot of the block's shape. -/
theorem State.wf_answer (s : State) : s.answer.wf s.cfg = true := by
  unfold State.answer
  split
  · exact wf_fitSnapshot _ _
  · exact wf_freeSnapshot _ _

end Sys2Proof.Machine
end

