-- ==== Sys2Proof/Laws/PerInstr.lean ====
section
/-! SUPPORT. The families of statements made per operation. -/

namespace Sys2Proof.Laws.RoundTrip

/-- The word of an operation decodes to it (30_encoding.md R76 to R78, R81). -/
def Statement (i : Instr) : Prop := decode (encode i) = .op i

theorem init : Statement .init := by unfold Statement; decide
theorem pollData : Statement .pollData := by unfold Statement; decide
theorem pollNodata : Statement .pollNodata := by unfold Statement; decide
theorem build : Statement .build := by unfold Statement; decide
theorem latch : Statement .latch := by unfold Statement; decide
theorem centry (S : Byte) : Statement (.centry S) := by unfold Statement; revert S; decide
theorem publish : Statement .publish := by unfold Statement; decide
theorem ledupd : Statement .ledupd := by unfold Statement; decide
theorem rstupd : Statement .rstupd := by unfold Statement; decide
theorem magDi : Statement .magDi := by unfold Statement; decide
theorem magWrise : Statement .magWrise := by unfold Statement; decide
theorem magWfall : Statement .magWfall := by unfold Statement; decide
theorem magAssert : Statement .magAssert := by unfold Statement; decide
theorem magHold : Statement .magHold := by unfold Statement; decide
theorem magRel : Statement .magRel := by unfold Statement; decide
theorem magEi : Statement .magEi := by unfold Statement; decide
theorem edge : Statement .edge := by unfold Statement; decide
theorem isrRun (S : Byte) : Statement (.isrRun S) := by unfold Statement; revert S; decide
theorem isrClr : Statement .isrClr := by unfold Statement; decide
theorem hostsel (S : Byte) : Statement (.hostsel S) := by unfold Statement; revert S; decide
theorem hostmon (m : Bool) : Statement (.hostmon m) := by unfold Statement; revert m; decide

end Sys2Proof.Laws.RoundTrip
end

