-- ==== Sys2Proof/Laws/Pseudo.lean ====
section
/-! SUPPORT. How performing a sequence of operations goes, said once. -/

namespace Sys2Proof.Machine

/-- Performing a sequence whose first operation has a step. -/
theorem perform_cons {i : Instr} {rest : List Instr} {s t : State} (h : exec i s = .next t) :
    perform (i :: rest) s = perform rest t := by
  simp [perform, h]

/-- Performing one sequence after another. -/
theorem perform_append {l rest : List Instr} {s t : State} (h : perform l s = .next t) :
    perform (l ++ rest) s = perform rest t := by
  induction l generalizing s with
  | nil => cases h; rfl
  | cons i l ih =>
    simp only [List.cons_append, perform] at h ⊢
    split at h
    · exact ih h
    · cases h
    · cases h

end Sys2Proof.Machine
end

