-- ==== Sys2Proof/Laws/Runs.lean ====
section
/-! SUPPORT. What runs reach, said once. -/

namespace Sys2Proof.Safety

open Sys2Proof.Machine

/-- Performing operations without a PUBLISH keeps the last published matrix. -/
theorem Reaches.perform {cfg : Config} {s t : State} {m : ScanMatrix} {l : List Instr}
    (hs : Reaches cfg s m) (hl : .publish ∉ l) (h : Machine.perform l s = .next t) :
    Reaches cfg t m := by
  induction l generalizing s with
  | nil => cases h; exact hs
  | cons i l ih =>
    rw [List.mem_cons, not_or] at hl
    simp only [Machine.perform] at h
    split at h
    · next u hu => exact ih (hs.other i (Ne.symm hl.1) hu) hl.2 h
    · cases h
    · cases h

end Sys2Proof.Safety
end

