-- ==== Sys2Proof/Laws/Step.lean ====
section
/-! SUPPORT. What one step of the machine can do, said once: it is one operation's step, in a state that
differs from the given one in the model's own fields alone. -/

namespace Sys2Proof.Machine

/-- A step that answers next is an operation's, taken in the state with another schedule or draw count. -/
theorem step_next {s t : State} (h : step s = .next t) :
    ∃ (i : Instr) (sched : List OpWord) (draws : Nat),
      exec i { s with sched := sched, draws := draws } = .next t := by
  unfold step at h
  split at h
  · next i u hf =>
    unfold fetch at hf
    split at hf
    · cases hf
    · split at hf
      · split at hf
        · obtain ⟨rfl, rfl⟩ := Prod.mk.inj (Except.ok.inj hf)
          exact ⟨_, _, s.draws, h⟩
        · cases hf
      · split at hf
        · obtain ⟨rfl, rfl⟩ := Prod.mk.inj (Except.ok.inj hf)
          exact ⟨_, s.sched, _, h⟩
        · cases hf
  · cases h

/-- An invariant that ignores the model's own schedule and draw count, and that every operation keeps,
is kept by every step. -/
theorem step_keeps {P : State → Prop}
    (hmodel : ∀ s sched draws, P s → P { s with sched := sched, draws := draws })
    (hexec : ∀ i s t, P s → exec i s = .next t → P t) :
    ∀ s t, P s → step s = .next t → P t := by
  intro s t hs h
  obtain ⟨i, sched, draws, h⟩ := step_next h
  exact hexec i _ t (hmodel s sched draws hs) h

end Sys2Proof.Machine
end

