-- ==== Sys2Proof/Tests/Slice0.lean ====
section
/-! SUPPORT. The model's own tests, their expected results taken from the spec (95_test_vectors.md, unless a
comment says otherwise), and for every statement with hypotheses a witness that meets them. -/

namespace Sys2Proof.Tests

open Sys2Proof.Machine Sys2Proof.Safety

/-- What a test looks at in the next state; none where there is no step. -/
def look {α : Type} (o : Out) (f : State → α) : Option α :=
  match o with
  | .next t => some (f t)
  | .fault _ => none
  | .refused _ => none

/-- The refusal of an outcome, if it is one. -/
def refusalOf (o : Out) : Option Refusal :=
  match o with
  | .next _ => none
  | .fault _ => none
  | .refused r => some r

/-- The reset state with its sequencer at phase p and the strobe enabled. -/
def base (p : Phase) : State := { State.reset with phase := p, ie := true }

/-- A matrix from its rows. -/
def rows (a b c d e f g h : Byte) : ScanMatrix := #v[a, b, c, d, e, f, g, h]

/-- M_R (L1.1). -/
def matrixR : ScanMatrix := rows 0x05 0x02 0x04 0x08 0x10 0x01 0x00 0x00

/-- M_A: key A alone. -/
def matrixA : ScanMatrix := rows 0x00 0x01 0x00 0x00 0x00 0x00 0x00 0x00

/-! ### Encoding (L2.1) -/

/-- Words written out bit by bit as `op sub imm8` (30_encoding.md R75 to R78). -/
theorem test_words_of_the_idle_sequencer :
    [0b0000_0000_00000000#16, 0b0001_0001_00000000#16, 0b0001_0000_00000000#16,
      0b0010_0000_00000000#16, 0b0011_0000_00000000#16, 0b0100_0000_00000000#16,
      0b0100_0000_11111111#16, 0b0101_0000_00000000#16, 0b0110_0000_00000000#16,
      0b0111_0000_00000000#16].map decode
    = [.op .init, .op .pollData, .op .pollNodata, .op .build, .op .latch, .op (.centry 0x00),
      .op (.centry 0xFF), .op .publish, .op .ledupd, .op .rstupd] := by decide

theorem test_words_of_the_magic_family :
    [0b1000_0000_00000000#16, 0b1000_0001_00000000#16, 0b1000_0010_00000000#16,
      0b1000_0011_00000000#16, 0b1000_0100_00000000#16, 0b1000_0101_00000000#16,
      0b1000_0110_00000000#16].map decode
    = [.op .magDi, .op .magWrise, .op .magWfall, .op .magAssert, .op .magHold, .op .magRel,
      .op .magEi] := by decide

theorem test_words_of_host_and_responder :
    [0b1001_0000_00000000#16, 0b1010_0000_11111101#16, 0b1011_0000_00000000#16,
      0b1100_0000_11111110#16, 0b1101_0000_00000000#16, 0b1101_0001_00000000#16].map decode
    = [.op .edge, .op (.isrRun 0xFD), .op .isrClr, .op (.hostsel 0xFE), .op (.hostmon false),
      .op (.hostmon true)] := by decide

theorem test_reserved_words :
    [0x0001#16, 0x1200#16, 0x1101#16, 0x2100#16, 0x4180#16, 0x8700#16, 0x8F00#16, 0x8001#16,
      0x90FF#16, 0xA1FD#16, 0xD200#16, 0xD001#16, 0xE000#16, 0xE123#16, 0xFFFF#16].all
      (fun w => decode w == .reserved) = true := by decide

/-- Each check of a word refuses an ill-formed one, and none refuses CENTRY 0xFF. -/
theorem test_word_checks :
    OpWord.reservedOp 0xE000#16 = true ∧ OpWord.reservedSub 0x2100#16 = true ∧
    OpWord.reservedFlag 0x1200#16 = true ∧ OpWord.reservedMagic 0x8700#16 = true ∧
    OpWord.reservedImm 0x0001#16 = true ∧ OpWord.wf 0xE000#16 = false ∧
    OpWord.wf 0x2100#16 = false ∧ OpWord.wf 0x1200#16 = false ∧ OpWord.wf 0x8700#16 = false ∧
    OpWord.wf 0x0001#16 = false ∧ OpWord.wf 0x40FF#16 = true := by decide

theorem test_snapshot_checks :
    Snapshot.wf Config.rc ⟨0, [0x04]⟩ = false ∧
    Snapshot.wf Config.rc ⟨0, [0x104, 0, 0, 0, 0, 0]⟩ = false ∧
    Snapshot.wf Config.rc ⟨0, [0xFF, 0, 0, 0, 0, 0]⟩ = true := by decide

/-- The lines of L3, P1. -/
theorem test_assembly_lines :
    [Instr.init, .pollData, .centry 0xFD, .isrRun 0x0A, .hostmon true].map assemblyLine
    = ["INIT", "POLL data", "CENTRY 0xFD", "ISR_RUN 0x0A", "HOSTMON 1"] := by decide

theorem test_assemble :
    assemble "ISR_RUN" (some ['0', 'x', 'F', 'D']) = some (.isrRun 0xFD) ∧
    assemble "POLL" (some ['d', 'a', 't', 'a']) = some .pollData ∧
    assemble "CENTRY" none = none ∧ assemble "MAG_EI" none = some .magEi := by decide

/-! ### Configuration (L2.9) -/

theorem test_reference_configuration : Config.wf Config.rc = true := by decide

theorem test_check_a :
    Config.checkA { Config.rc with keymap := (0x04, .key ⟨8, 0⟩ false false) :: Config.rc.keymap }
      = false ∧
    Config.checkA { Config.rc with keymap := (0x00, .key ⟨9, 5⟩ false false) :: Config.rc.keymap }
      = false ∧
    Config.checkA { Config.rc with keymap := (0x44, .key ⟨0, 5⟩ true false) :: Config.rc.keymap }
      = false := by decide

theorem test_check_b :
    Config.checkB { Config.rc with resetCode := 0x42 } = false := by decide

theorem test_check_c :
    Config.checkC { Config.rc with modeActPos := ⟨0, 3⟩ } = false ∧
    Config.checkC { Config.rc with modeActPos := ⟨9, 5⟩ } = false := by decide

/-- Codes are of CODE_WIDTH bits (00_scope.md R9): RC's need 7. -/
theorem test_check_width :
    Config.checkWidth { Config.rc with codeWidth := 6 } = false ∧
    Config.checkWidth { Config.rc with emptyCode := 0x100 } = false := by decide

theorem test_check_d :
    Config.checkD { Config.rc with joymap := (0x50, ⟨4, 5⟩) :: Config.rc.joymap.tail }
      = false := by decide

theorem test_check_e :
    Config.checkE { Config.rc with joymap := (0x44, ⟨4, 4⟩) :: Config.rc.joymap.tail }
      = false := by decide

theorem test_check_g : Config.checkG { Config.rc with nKeys := 0 } = false := by decide

/-! ### Reset, INIT and enabling (L2.8, L2.1) -/

theorem test_init :
    look (exec .init State.reset) (fun t => (t.ie, t.phase)) = some (true, .poll) := by decide

/-- "A well-formed word that is not enabled gives no step". -/
theorem test_words_not_enabled :
    refusalOf (exec .build (base .poll)) = some (.notEnabled .build) ∧
    refusalOf (exec (.centry 0x05) { base .compile with cidx := 0x04 })
      = some (.notEnabled (.centry 0x05)) ∧
    refusalOf (exec (.isrRun 0xFD) { base .poll with pend := true, selIn := 0xFE })
      = some (.notEnabled (.isrRun 0xFD)) ∧
    refusalOf (exec (.isrRun 0xFF) { State.reset with pend := true })
      = some (.notEnabled (.isrRun 0xFF)) ∧
    refusalOf (exec .latch { base .latch with inIsr := true }) = some (.notEnabled .latch) ∧
    refusalOf (exec .isrClr (base .poll)) = some (.notEnabled .isrClr) := by decide

/-- The first step after reset runs the word placed at the fetch (the host's form of it). -/
theorem test_fetch_after_reset :
    look (step (State.reset.withFetchWord 16 0x40FF)) (fun t => t.phase) = some .publish ∧
    look (step (State.reset.withFetchWord 16 0xA0FD)) (fun t => t.out) = some 0xFF#8 ∧
    refusalOf (step (State.reset.withFetchWord 16 0xE123)) = some (.reservedWord 0xE123) := by
  decide

/-! ### POLL and BUILD (L2.2) -/

/-- POLL data takes the snapshot, and one of the wrong length is cut or filled (log entry 5). -/
theorem test_poll_data :
    look (exec .pollData { base .poll with usb := [⟨0x02, [0x1B, 0x16, 0x08, 0x21, 0x23, 0x13]⟩] })
      (fun t => (t.snap, t.phase, t.usb))
      = some (⟨0x02, [0x1B, 0x16, 0x08, 0x21, 0x23, 0x13]⟩, .build, []) ∧
    look (exec .pollData { base .poll with usb := [⟨0, [0x04]⟩] }) (fun t => t.snap.codes)
      = some [0x04, 0, 0, 0, 0, 0] := by decide

theorem test_poll_nodata :
    look (exec .pollNodata { base .poll with rst := true, rstReq := true, magReq := true })
      (fun t => (t.rstReq, t.magReq, t.rst, t.phase)) = some (false, false, true, .rst) ∧
    look (exec .pollNodata { base .poll with
        rst := true, cfg := { Config.rc with resetOnNodata := .hold } })
      (fun t => (t.rstReq, t.phase)) = some (true, .rst) := by decide

/-- The code of an event. -/
def codeOf : Event → Code
  | .unmapped c => c

/-- BUILD on a snapshot, from a state whose M, RSTREQ and MAGREQ hold something else. -/
def built (mode : Bool) (mods : Byte) (codes : List Code) : Option (Built × Phase) :=
  look (exec .build { base .build with
      mode := mode, snap := ⟨mods, codes⟩, matrix := matrixR, rstReq := true, magReq := true })
    (fun t => (⟨t.matrix, t.rstReq, t.magReq, t.events.map codeOf⟩, t.phase))

/-- Rows 10, 14, 26, 30 and 38: forced SYM, joystick, all modifiers, M_R, the old MODE. -/
theorem test_build_keys :
    built false 0x00 [0x2D, 0, 0, 0, 0, 0]
      = some (⟨rows 0 0 0 0 0 0 0x08 0x02, false, false, []⟩, .latch) ∧
    built true 0x00 [0x4F, 0, 0, 0, 0, 0]
      = some (⟨rows 0 0 0 0 0x08 0 0 0, false, false, []⟩, .latch) ∧
    built false 0xFF [0, 0, 0, 0, 0, 0]
      = some (⟨rows 0x01 0 0 0 0x01 0 0 0x02, false, false, []⟩, .latch) ∧
    built false 0x02 [0x1B, 0x16, 0x08, 0x21, 0x23, 0x13]
      = some (⟨matrixR, false, false, []⟩, .latch) ∧
    built false 0x00 [0x44, 0x4F, 0, 0, 0, 0]
      = some (⟨rows 0x21 0 0 0 0x04 0 0 0, false, false, []⟩, .latch) := by decide

/-- Rows 31, 32 and 41: one event for a repeated code, increasing code order, both requests. -/
theorem test_build_reports :
    built false 0x00 [0x39, 0x04, 0x39, 0, 0, 0]
      = some (⟨matrixA, false, false, [0x39]⟩, .latch) ∧
    built false 0x00 [0x68, 0x39, 0x3E, 0, 0, 0]
      = some (⟨ScanMatrix.clear, false, false, [0x39, 0x3E, 0x68]⟩, .latch) ∧
    built false 0x00 [0x43, 0x42, 0x04, 0, 0, 0]
      = some (⟨matrixA, true, true, []⟩, .latch) := by decide

/-! ### LATCH (L2.3) -/

/-- MODE after LATCH, from M[0] and MODE before. -/
def latched (m0 : Byte) (mode : Bool) : Option (Bool × Byte × Phase) :=
  look (exec .latch { base .latch with
      matrix := rows m0 0 0 0 0 0 0 0, mode := mode, cidx := 0x41 })
    (fun t => (t.mode, t.cidx, t.phase))

theorem test_latch_from_off :
    [0x00, 0x20, 0x80, 0xA0].map (fun m => latched m false)
    = [some (false, 0, .compile), some (true, 0, .compile), some (false, 0, .compile),
      some (false, 0, .compile)] := by decide

theorem test_latch_from_on :
    [0x00, 0x20, 0x80, 0xA0, 0x1F, 0x40].map (fun m => latched m true)
    = [some (true, 0, .compile), some (true, 0, .compile), some (false, 0, .compile),
      some (false, 0, .compile), some (true, 0, .compile), some (true, 0, .compile)] := by decide

/-! ### Compile and publish (L2.4, L2.5) -/

theorem test_entries_of_matrixR :
    [0x00, 0xFE, 0xFB, 0xDF, 0x7F, 0xFC, 0x0F, 0xAA, 0x7E, 0xFF].map (entry matrixR)
    = [0xE0, 0xFA, 0xFB, 0xFE, 0xFF, 0xF8, 0xEE, 0xEA, 0xFA, 0xFF] := by decide

theorem test_centry_middle :
    look (exec (.centry 0x41) { base .compile with act := 1, cidx := 0x41, matrix := matrixR })
      (fun t => (t.entryAt 0 0x41, t.entryAt 1 0x41, t.cidx, t.phase))
    = some (0xE0, 0xFF, 0x42, .compile) := by decide

theorem test_centry_last :
    look (exec (.centry 0xFF) { base .compile with
        act := 1, cidx := 0xFF, matrix := matrixR, tbl := [(0xFF, 0x00)] })
      (fun t => (t.entryAt 0 0xFF, t.cidx, t.phase, t.tbl)) = some (0xFF, 0xFF, .publish, []) := by
  decide

theorem test_publish :
    look (exec .publish { base .publish with out := 0xFB }) (fun t => (t.act, t.phase, t.out))
      = some (1, .led, 0xFB) ∧
    look (exec .publish { base .publish with act := 1 }) (fun t => t.act) = some 0 := by decide

/-- The end of CYCLE with and without MAGREQ, and MAGIC's "one or more" samples (30_encoding.md R83). -/
theorem test_pseudo_cycle :
    (pseudoCycle true 0 1).drop 259 = [.publish, .ledupd, .rstupd, .magDi, .magWrise, .magWfall,
      .magWfall, .magAssert, .magHold, .magRel, .magEi] ∧
    (pseudoCycle false 0 1).drop 258 = [.centry 0xFF, .publish, .ledupd, .rstupd] := by decide

/-! ### Strobe responder and host (L2.6) -/

/-- A state in which the active table answers 0xFA to 0xFE, as compile(M_R) does. -/
def serving : State :=
  { base .compile with tbl := [(0xFE, 0xFA)], selIn := 0xFE, pend := true, cidx := 0x33 }

theorem test_isr_run :
    look (exec (.isrRun 0xFE) serving) (fun t => (t.out, t.inIsr, t.pend, t.ie, t.phase, t.cidx))
      = some (0xFA, true, true, true, .compile, 0x33) ∧
    look (exec (.isrRun 0xFE) { serving with act := 1 }) (fun t => t.out) = some 0xFF := by decide

theorem test_isr_clr :
    look (exec .isrClr { serving with inIsr := true, out := 0xFA })
      (fun t => (t.pend, t.inIsr, t.out, t.ie)) = some (false, false, 0xFA, true) := by decide

theorem test_host_steps :
    look (exec .edge { base .poll with inIsr := true }) (fun t => t.pend) = some true ∧
    look (exec (.hostsel 0xFD) serving) (fun t => (t.selIn, t.out)) = some (0xFD, 0x00) ∧
    look (exec (.hostmon true) serving) (fun t => (t.monIn, t.monPrev)) = some (true, none) := by
  decide

/-- An active edge is one of the polarity STROBE_EDGE (44_strobe_responder.md R180); RC's is falling. -/
theorem test_strobe_edges :
    [State.strobeEdgeSeen serving true false, State.strobeEdgeSeen serving false true,
      State.strobeEdgeSeen serving true true,
      State.strobeEdgeSeen { serving with cfg := { Config.rc with strobeEdge := .rising } }
        false true]
    = [true, false, false, true] := by decide

/-! ### Auxiliary signaling (L2.7) -/

theorem test_ledupd :
    look (exec .ledupd { base .led with led := true }) (fun t => (t.led, t.phase))
      = some (false, .rst) ∧
    look (exec .ledupd { base .led with act := 1, tbl := [(0x100, 0xDF)] }) (fun t => t.led)
      = some true := by decide

theorem test_rstupd :
    look (exec .rstupd { base .rst with rstReq := true }) (fun t => (t.rst, t.phase))
      = some (true, .poll) ∧
    look (exec .rstupd { base .rst with rst := true, magReq := true }) (fun t => (t.rst, t.phase))
      = some (false, .magDi) := by decide

theorem test_mag_di :
    look (exec .magDi { base .magDi with monPrev := some true })
      (fun t => (t.ie, t.monPrev, t.phase)) = some (false, none, .magRise) := by decide

/-- The six rows of MAG_WRISE. -/
theorem test_mag_wrise :
    [(none, false), (none, true), (some false, false), (some false, true), (some true, true),
      (some true, false)].map
      (fun p => look (exec .magWrise { base .magRise with monPrev := p.1, monIn := p.2 })
        (fun t => (t.monPrev, t.phase)))
    = [some (some false, .magRise), some (some true, .magRise), some (some false, .magRise),
      some (some true, .magFall), some (some true, .magRise), some (some false, .magRise)] := by
  decide

/-- The four rows of MAG_WFALL. -/
theorem test_mag_wfall :
    [(some true, true), (some true, false), (some false, false), (some false, true)].map
      (fun p => look (exec .magWfall { base .magFall with monPrev := p.1, monIn := p.2 })
        (fun t => (t.monPrev, t.phase)))
    = [some (some true, .magFall), some (some false, .magAssert), some (some false, .magFall),
      some (some true, .magFall)] := by decide

theorem test_mag_assert :
    look (exec .magAssert (base .magAssert)) (fun t => (t.mag, t.phase, t.magicOut))
      = some (true, .magHold, true) := by decide

theorem test_mag_hold :
    look (exec .magHold { base .magHold with mag := true, ie := false }) (fun t => t)
      = some { base .magHold with mag := true, ie := false, phase := .magRel } := by decide

theorem test_mag_rel :
    look (exec .magRel { base .magRel with mag := true }) (fun t => (t.mag, t.phase, t.magicOut))
      = some (false, .magEi, false) := by decide

theorem test_mag_ei :
    look (exec .magEi { base .magEi with ie := false, pend := true })
      (fun t => (t.ie, t.phase, t.pend)) = some (true, .poll, true) := by decide

/-- The lines of an active-low LED and magic output (45_aux_signaling.md R202, R208, R210). -/
theorem test_active_low_lines :
    let s := { base .poll with
      cfg := { Config.rc with ledActiveLevel := false, magActiveLevel := false }, led := true }
    (s.ledOut, s.magicOut, s.resetOut, s.dataOut) = (false, true, false, 0x00#8) := by decide

/-! ### Witnesses: a concrete state and operands that meet a statement's hypotheses -/

/-- A refusal is no next state. -/
theorem no_next_of_refusal {o : Out} {r : Refusal} (h : refusalOf o = some r) (t : State) :
    o ≠ .next t := by
  rintro rfl
  cases h

/-- The reset state with INIT scheduled. -/
def scheduled : State := { State.reset with sched := [0x0000#16] }

theorem scheduled_legal : Legal scheduled := ⟨by decide, by decide⟩

theorem witness_step_scheduled :
    Legal scheduled ∧ scheduled.sched = [0x0000#16] ∧ decode 0x0000#16 = .op .init :=
  ⟨scheduled_legal, by decide⟩

theorem witness_step_unscheduled : Legal State.reset ∧ State.reset.sched = [] :=
  ⟨⟨by decide, by decide⟩, rfl⟩

theorem witness_step_refused :
    { State.reset with cfg := { Config.rc with nKeys := 0 } }.cfg.wf = false ∧
    (base .unreachable).cfg.wf = true ∧ (base .unreachable).phase = .unreachable := by decide

theorem witness_step_reserved :
    Legal { State.reset with sched := [0x8700#16] } ∧ OpWord.wf 0x8700#16 = false :=
  ⟨⟨by decide, by decide⟩, by decide⟩

/-- A word of each kind that the decoder tells apart; 0x8700 is a word no row matches. -/
theorem witness_decoder :
    decode 0x40FF#16 = .op (.centry 0xFF) ∧ OpWord.op 0xEFFF#16 = 0xE#4 ∧
    OpWord.op 0xF000#16 = 0xF#4 ∧ (∃ row ∈ opTable, 0xD100#16 &&& row.mask = row.value) ∧
    OpWord.op 0x8700#16 ≠ 0xE#4 ∧ OpWord.op 0x8700#16 ≠ 0xF#4 ∧
    ∀ row ∈ opTable, 0x8700#16 &&& row.mask ≠ row.value := by decide

/-- The last phase with its own op and the first and last of the magic phases. -/
theorem witness_phases :
    phaseOf .rstupd = some .rst ∧ Phase.rst.code.toNat = 7 ∧ phaseOf .magDi = some .magDi ∧
    Phase.magDi.code.toNat = 8 ∧ phaseOf .magEi = some .magEi ∧
    Phase.magEi.code.toNat = 14 := by decide

/-- INIT enabled, and not enabled in a service or at another phase. -/
theorem witness_init :
    (State.reset.phase = .init ∧ State.reset.inIsr = false) ∧
    ¬({ State.reset with inIsr := true }.phase = .init ∧
      { State.reset with inIsr := true }.inIsr = false) ∧
    ¬((base .poll).phase = .init ∧ (base .poll).inIsr = false) := by decide

/-- Reset at power-on, and in the middle of a service. -/
theorem witness_reset :
    State.reset = State.resetDraw Config.rc 0x00 0xFF false ∧
    { serving with inIsr := true }.cfg = Config.rc ∧
    ({ serving with inIsr := true }.platformReset 0x5A 0x00 true).tbl = [] := by decide

/-- POLL with a snapshot of N_KEYS slots at hand and with none. -/
theorem witness_poll_data :
    let s := { base .poll with usb := [⟨0x02, [0x04, 0, 0, 0, 0, 0]⟩] }
    s.phase = .poll ∧ s.inIsr = false ∧
    s.usb = ⟨0x02, [0x04, 0, 0, 0, 0, 0]⟩ :: [] ∧
    Snapshot.wf s.cfg ⟨0x02, [0x04, 0, 0, 0, 0, 0]⟩ = true ∧ (base .poll).phase = .poll ∧
    (base .poll).inIsr = false ∧ (base .poll).usb = [] := by decide

/-- Both values of RESET_ON_NODATA, for the poll and for the whole no-data cycle. -/
theorem witness_poll_nodata :
    let hold := { base .poll with cfg := { Config.rc with resetOnNodata := .hold } }
    (base .poll).phase = .poll ∧ (base .poll).inIsr = false ∧
    (base .poll).cfg.resetOnNodata = .driveLow ∧ hold.phase = .poll ∧ hold.inIsr = false ∧
    hold.cfg.resetOnNodata = .hold := by decide

/-- A state about to build Shift and two keys. -/
def building : State :=
  { base .build with snap := ⟨0x02, [0x04, 0x39, 0, 0, 0, 0]⟩, mode := true }

theorem witness_build : building.phase = .build ∧ building.inIsr = false := by decide

/-- The same codes in another order, one of them twice. -/
theorem witness_build_order :
    (⟨0x02, [0x39, 0x39, 0, 0x04, 0, 0]⟩ : Snapshot).mods = building.snap.mods ∧
    ∀ c : Code, c ∈ [0x39, 0x39, 0, 0x04, 0, 0] ↔ c ∈ building.snap.codes := by
  refine ⟨rfl, fun c => ?_⟩
  simp only [building, base, List.mem_cons, List.not_mem_nil, or_false]
  tauto

/-- Two building states that agree in SNAP, MODE and the configuration and in nothing else. -/
theorem witness_build_determinism :
    let s' := { building with act := 1, out := 0x7F, rst := true, matrix := matrixR, led := true }
    s'.phase = .build ∧ s'.inIsr = false ∧ building.snap = s'.snap ∧ building.mode = s'.mode ∧
    building.cfg = s'.cfg ∧ building ≠ s' := by decide

theorem witness_build_empty :
    (base .build).phase = .build ∧ (base .build).inIsr = false ∧ (base .build).snap.mods = 0 ∧
    ∀ c ∈ (base .build).snap.codes, c = (base .build).cfg.emptyCode := by decide

/-- A state about to latch a matrix with row 0 as given. -/
def latching (m0 : Byte) (mode : Bool) : State :=
  { base .latch with matrix := rows m0 0 0 0 0 0 0 0, mode := mode }

/-- The three cases of LATCH: deactivate (here with activate), activate alone, neither. -/
theorem witness_latch :
    (∀ m0 ∈ [0xA0#8, 0x20#8, 0x5F#8],
      (latching m0 true).phase = .latch ∧ (latching m0 true).inIsr = false) ∧
    ScanMatrix.bit (latching 0xA0 true).matrix Config.rc.modeDeactPos = true ∧
    (ScanMatrix.bit (latching 0x20 true).matrix Config.rc.modeDeactPos = false ∧
      ScanMatrix.bit (latching 0x20 true).matrix Config.rc.modeActPos = true) ∧
    (ScanMatrix.bit (latching 0x5F true).matrix Config.rc.modeDeactPos = false ∧
      ScanMatrix.bit (latching 0x5F true).matrix Config.rc.modeActPos = false) := by decide

/-- LATCH changes MODE to 1 and to 0. -/
theorem witness_mode_changes :
    look (exec .latch (latching 0x20 false)) (fun t => t.mode) = some true ∧
    look (exec .latch (latching 0x80 true)) (fun t => t.mode) = some false := by decide

/-- Hypotheses of the response laws (b), (e), (f) and (g), at the ends of their ranges. -/
theorem witness_response_laws :
    (7 < 8 ∧ 0 < 8) ∧ (∀ r, r < 8 → ScanMatrix.row ScanMatrix.clear r = 0x00#8) ∧
    (∀ r, r < 8 → (0x81#8).getLsbD r = false →
      ScanMatrix.row matrixR r = ScanMatrix.row (rows 0xFF 2 4 8 0x10 1 0 0xFF) r) ∧
    (entry (rows 0xA0 0 0 0 0 0 0 0) 0xFE#8).getLsbD 5 = false ∧
    (entry (rows 0xA0 0 0 0 0 0 0 0) 0xFE#8).getLsbD 7 = false := by decide

/-- Under law (g)'s hypothesis bits 5 and 7 of row 0 are RC's two virtual positions. -/
theorem witness_virtual_matrix (p : Coord) (hb : 5 ≤ p.b)
    (h : ScanMatrix.bit (rows 0xA0 0 0 0 0 0 0 0) p = true) : p = ⟨0, 5⟩ ∨ p = ⟨0, 7⟩ := by
  obtain ⟨r, b⟩ := p
  by_cases hr : r < 8
  · by_cases hb8 : b < 8
    · have hall : ∀ r < 8, ∀ b < 8, 5 ≤ b → ScanMatrix.bit (rows 0xA0 0 0 0 0 0 0 0) ⟨r, b⟩ = true →
          (⟨r, b⟩ : Coord) = ⟨0, 5⟩ ∨ (⟨r, b⟩ : Coord) = ⟨0, 7⟩ := by decide
      exact hall r hr b hb8 hb h
    · rw [ScanMatrix.bit, BitVec.getLsbD_of_ge _ _ (by simpa using hb8)] at h
      cases h
  · simp [ScanMatrix.bit, ScanMatrix.row, hr] at h

/-- CENTRY at the first entry, at the last but one and at the last. -/
theorem witness_centry :
    ∀ S ∈ [0x00#8, 0xFE#8, 0xFF#8],
      { base .compile with cidx := S }.phase = .compile ∧
      { base .compile with cidx := S }.inIsr = false ∧ S = { base .compile with cidx := S }.cidx := by
  decide

theorem witness_compile :
    let s := { base .compile with matrix := matrixR }
    s.phase = .compile ∧ s.inIsr = false ∧ s.cidx = 0 := by decide

/-- With nothing pressed both tables of the reset content are the matrix's. -/
theorem holds_clear (s : State) (h : s.tbl = []) (slot : Slot) :
    HoldsTable s slot ScanMatrix.clear := by
  have hc : ∀ S : Byte, entry ScanMatrix.clear S = 0xFF#8 := by decide
  intro S
  rw [hc, State.entryAt, State.memRead, h]
  rfl

theorem witness_publish :
    DoubleBuffer (base .publish) ∧ (base .publish).phase = .publish ∧
    (base .publish).inIsr = false :=
  ⟨⟨⟨_, holds_clear _ rfl _⟩, fun h => (by cases h), fun _ => holds_clear _ rfl _⟩, rfl, rfl⟩

/-- ACT changes at a PUBLISH. -/
theorem witness_active_changes :
    look (exec .publish (base .publish)) (fun t => decide (t.act ≠ (base .publish).act))
      = some true := by decide

/-- The invariants hold together in a state from which an operation and the machine have a step. -/
theorem witness_invariants :
    DoubleBuffer scheduled ∧ InterruptOk scheduled ∧ MagicOk scheduled ∧ LedOk scheduled ∧
    MatrixOk scheduled ∧ Legal scheduled ∧ scheduled.snap.wf scheduled.cfg = true ∧
    scheduled.tbl.wf = true ∧ (∃ t, exec .init scheduled = .next t) ∧
    ∃ t, step scheduled = .next t := by
  refine ⟨⟨⟨_, holds_clear _ rfl _⟩, fun h => (by cases h), fun h => (by cases h)⟩,
    ⟨by decide, by decide⟩, ⟨by decide, by decide⟩, ?_, ⟨by decide, ?_⟩, scheduled_legal, by decide,
    by decide, ⟨_, rfl⟩, ⟨_, rfl⟩⟩
  · intro _
    decide
  · intro p _ h
    have hrow : ∀ r, ScanMatrix.row scheduled.matrix r = 0 := by
      intro r
      by_cases hr : r < 8
      · have hall : ∀ r < 8, ScanMatrix.row scheduled.matrix r = 0 := by decide
        exact hall r hr
      · simp [ScanMatrix.row, hr]
    rw [ScanMatrix.bit, hrow] at h
    simp at h

/-- Before its first publication: a strobe, INIT, then the responder. -/
theorem witness_run :
    ∃ s t, Reaches Config.rc s ScanMatrix.clear ∧ exec (.isrRun 0xFF) s = .next t :=
  ⟨_, _, .other .init (by decide) (.other .edge (by decide) (.reset 0x5A 0xFF true) rfl) rfl, rfl⟩

/-- From reset to the first PUBLISH; no shorter run publishes (43_publication.md R172). -/
def untilPublish : List Instr := [.init, .pollData, .build, .latch] ++ pseudoCompile

/-- The state after reset, SEL_IN selecting row 1, with a snapshot of key A waiting. -/
def waiting : State :=
  { State.resetDraw Config.rc 0x5A 0xFD true with usb := [⟨0, [0x04, 0, 0, 0, 0, 0]⟩] }

theorem waiting_until_publish :
    look (perform untilPublish waiting) (fun t => (t.phase, t.inIsr, t.matrix, t.ie, t.selIn))
      = some (.publish, false, matrixA, true, 0xFD) := by decide +kernel

/-- After a publication: M_A is published, and a strobe is about to be served. -/
theorem witness_run_published :
    ∃ s t, Reaches Config.rc s matrixA ∧ exec (.isrRun 0xFD) s = .next t := by
  have h := waiting_until_publish
  cases hp : perform untilPublish waiting with
  | fault f => rw [hp] at h; cases h
  | refused r => rw [hp] at h; cases h
  | next u =>
    rw [hp] at h
    simp only [look, Option.some.injEq, Prod.mk.injEq] at h
    obtain ⟨hphase, hisr, hmatrix, hie, hsel⟩ := h
    have hu : Reaches Config.rc u ScanMatrix.clear :=
      (Reaches.input _ [] 0 (Reaches.reset 0x5A 0xFD true)).perform (by decide +kernel) hp
    have hpub := hu.publish (exec_publish_next.2 ⟨⟨hphase, hisr⟩, rfl⟩)
    rw [hmatrix] at hpub
    exact ⟨_, _, hpub.other .edge (by decide) rfl,
      exec_isrRun_next.2 ⟨⟨⟨hie, rfl, hisr⟩, hsel.symm⟩, rfl⟩⟩

/-- The two masks of a service: not started with IE = 0, and started with all its conditions. -/
theorem witness_service :
    serving.ie = true ∧ serving.pend = true ∧ serving.inIsr = false ∧ 0xFE#8 = serving.selIn ∧
    phaseOf .publish ≠ none ∧ State.reset.ie = false := by decide

/-- A service in progress, and none. -/
theorem witness_in_service :
    { serving with inIsr := true }.inIsr = true ∧ serving.inIsr = false ∧
    look (exec .edge { serving with inIsr := true }) (fun t => t.pend) = some true := by decide

/-- A strobe latched at the end of the masked window. -/
theorem witness_strobe_after_mask :
    let s := { base .magEi with ie := false }
    s.phase = .magEi ∧ s.inIsr = false ∧ s.ie = false := by decide

/-- LEDUPD with the idle entry and with another; the active table of the first is a compile. -/
theorem witness_led :
    let s := { base .led with tbl := [(0x00, 0xFE)] }
    ((base .led).phase = .led ∧ (base .led).inIsr = false ∧
      (base .led).entryAt (base .led).act 0x00#8 = 0xFF#8) ∧
    (s.phase = .led ∧ s.inIsr = false ∧ s.entryAt s.act 0x00#8 ≠ 0xFF#8) := by decide

theorem witness_led_table : HoldsTable (base .led) (base .led).act ScanMatrix.clear :=
  holds_clear _ rfl _

theorem witness_rstupd :
    let s := { base .rst with magReq := true }
    (s.phase = .rst ∧ s.inIsr = false ∧ s.magReq = true) ∧
    ((base .rst).phase = .rst ∧ (base .rst).inIsr = false ∧ (base .rst).magReq = false) := by decide

/-- MAG_WRISE and MAG_WFALL with the edge and without; without it they also spin. -/
theorem witness_magic_waits :
    let r (prev : Option Bool) (m : Bool) := { base .magRise with monPrev := prev, monIn := m }
    let f (prev : Option Bool) (m : Bool) := { base .magFall with monPrev := prev, monIn := m }
    ((r none true).phase = .magRise ∧ (r none true).inIsr = false) ∧
    ((f none true).phase = .magFall ∧ (f none true).inIsr = false) ∧
    ((r (some false) true).monPrev = some false ∧ (r (some false) true).monIn = true) ∧
    ¬((r none true).monPrev = some false ∧ (r none true).monIn = true) ∧
    ((f (some true) false).monPrev = some true ∧ (f (some true) false).monIn = false) ∧
    ¬((f none false).monPrev = some true ∧ (f none false).monIn = false) := by decide

/-- A state at each of the five other phases of the handshake. -/
theorem witness_magic_actions :
    ∀ p ∈ [Phase.magDi, .magAssert, .magHold, .magRel, .magEi],
      (base p).phase = p ∧ (base p).inIsr = false := by decide

/-- The magic line is asserted, and the phase that asserts it is entered. -/
theorem witness_magic_pulse :
    look (exec .magAssert (base .magAssert)) (fun t => t.mag) = some true ∧
    (base .magAssert).mag = false ∧
    look (exec .magWfall { base .magFall with monPrev := some true }) (fun t => t.phase)
      = some .magAssert := by decide

/-- Both values of the registers behind the LED and magic lines. -/
theorem witness_ports :
    { base .poll with led := true, mag := true }.led = true ∧
    { base .poll with led := true, mag := true }.mag = true ∧ (base .poll).led = false ∧
    (base .poll).mag = false := by decide

/-- Registers that change, each at its owner's operation (first part). -/
theorem witness_owners_idle :
    look (exec (.centry 0) { base .compile with matrix := matrixA })
      (fun t => (t.tbl != [], t.cidx != 0)) = some (true, true) ∧
    look (exec .ledupd { base .led with led := true }) (fun t => (t.led, t.phase))
      = some (false, .rst) ∧
    look (exec .rstupd { base .rst with rstReq := true }) (fun t => t.rst) = some true ∧
    look (exec .build building) (fun t => (t.matrix != building.matrix, t.events.length))
      = some (true, 1) ∧
    look (exec .pollNodata { base .poll with magReq := true }) (fun t => t.magReq)
      = some false := by decide

/-- Registers that change, each at its owner's operation (second part). -/
theorem witness_owners_others :
    look (exec .pollData { base .poll with usb := [⟨1, [0, 0, 0, 0, 0, 0]⟩] })
      (fun t => (t.snap.mods, t.usb.length)) = some (1, 0) ∧
    look (exec .magDi { base .magDi with monPrev := some true }) (fun t => (t.ie, t.monPrev))
      = some (false, none) ∧
    look (exec .magAssert (base .magAssert)) (fun t => t.mag) = some true ∧
    look (exec .edge State.reset) (fun t => t.pend) = some true ∧
    look (exec (.isrRun 0xFE) serving) (fun t => (t.inIsr, t.out)) = some (true, 0xFA) ∧
    look (exec (.hostsel 0) State.reset) (fun t => t.selIn) = some 0 ∧
    look (exec (.hostmon true) State.reset) (fun t => t.monIn) = some true := by decide

/-- A CENTRY and an address it does not store to; an operation that stores nothing. -/
theorem witness_store :
    look (exec (.centry 0x00) (base .compile)) (fun t => t.cidx) = some 0x01 ∧
    (∀ S : Byte, Instr.centry 0x00 = .centry S →
      511 ≠ (tableAddr (1 - (base .compile).act) S).toNat) ∧
    look (exec .edge (base .compile)) (fun t => t.pend) = some true := by
  refine ⟨by decide, ?_, by decide⟩
  rintro S ⟨⟩
  decide

/-- The active table idle, at a service and at another step. -/
theorem witness_idle_output :
    (∀ S : Byte, (State.resetDraw Config.rc 0x12 0x34 true).entryAt 0 S = 0xFF#8) ∧
    (∀ S : Byte, { base .poll with pend := true }.entryAt 0 S = 0xFF#8) ∧
    look (exec (.isrRun 0xFF) { base .poll with pend := true }) (fun t => t.inIsr) = some true ∧
    look (exec .init State.reset) (fun t => t.ie) = some true :=
  ⟨fun _ => rfl, fun _ => rfl, by decide, by decide⟩

/-- A poll whose snapshot holds the magic key and key A, and one without the magic key. -/
theorem witness_data_cycle :
    let sn : Snapshot := ⟨0, [0x42, 0x04, 0, 0, 0, 0]⟩
    let s := { base .poll with usb := [sn] }
    s.phase = .poll ∧ s.inIsr = false ∧ s.usb = sn :: [] ∧ sn.wf s.cfg = true ∧
    (buildOf s.cfg s.mode sn).magReq = true ∧
    (buildOf s.cfg s.mode ⟨0, [0x04, 0, 0, 0, 0, 0]⟩).magReq = false := by decide

/-- INIT has no step at another phase. -/
theorem witness_init_refused (t : State) : exec .init (base .poll) ≠ .next t :=
  no_next_of_refusal (r := .notEnabled .init) (by decide) t

end Sys2Proof.Tests
end

section
/-! PROOFS. The state family (10_state.md): the ports, the block that is never stuck, the owners of each
register, the invariants of SNAP and of the matrix, and the whole data cycle. -/

namespace Sys2Proof.Machine

open Sys2Proof.Safety

/-! ### Ports (10_state.md R38) -/

@[simp] theorem lineLevel_true (active : Bool) : lineLevel active true = active := rfl

@[simp] theorem lineLevel_false (active : Bool) : lineLevel active false = !active := rfl

/-! ### Enabled operations complete (30_encoding.md R79) -/

theorem whenever_completes {cond : Bool} {i : Instr} {t : State} :
    (∃ u, whenever cond i t = .next u) ↔ cond = true := by
  simp [whenever_eq_next]

/-- An operation answers a next state exactly where it is enabled. -/
theorem exec_completes_iff (i : Instr) (s : State) :
    (∃ t, exec i s = .next t) ↔ enabled i s = true := by
  cases i
  case edge => exact iff_of_true ⟨_, rfl⟩ rfl
  case hostsel S => exact iff_of_true ⟨_, rfl⟩ rfl
  case hostmon m => exact iff_of_true ⟨_, rfl⟩ rfl
  all_goals exact whenever_completes

/-- What is enabled does not depend on the model's own fields. -/
theorem enabled_modelFields (i : Instr) (s : State) (sched : List OpWord) (draws : Nat) :
    enabled i { s with sched := sched, draws := draws } = enabled i s := by
  cases i <;> rfl

/-! ### The next operation where none is scheduled (log entry 2) -/

theorem State.enabled_of_freeOp {s : State} {i : Instr} (h : s.freeOp = some i) :
    enabled i s = true := by
  unfold State.freeOp at h
  split at h
  · split at h
    · next henabled => exact Option.some.inj h ▸ henabled
    · cases h
  · cases h

/-- Outside a service the idle sequencer has an operation at every phase but 15 (10_state.md R31). -/
theorem State.exists_idleOp {s : State} (hphase : s.phase ≠ .unreachable) (hisr : s.inIsr = false) :
    ∃ i, s.idleOp = some i ∧ enabled i s = true := by
  cases hp : s.phase
  case unreachable => exact absurd hp hphase
  case poll =>
    by_cases husb : s.usb = [] <;> simp [State.idleOp, enabled, State.idleAt, hp, hisr, husb]
  all_goals simp [State.idleOp, enabled, State.idleAt, hp, hisr]

/-- The unscheduled operation exists and is enabled: the free one, the end of the service, or the idle one. -/
theorem State.exists_unscheduled {s : State} (hphase : s.phase ≠ .unreachable) :
    ∃ i, s.unscheduled = some i ∧ enabled i s = true := by
  unfold State.unscheduled
  cases hfree : s.freeOp with
  | some i => exact ⟨i, rfl, State.enabled_of_freeOp hfree⟩
  | none =>
    cases hisr : s.inIsr with
    | true => exact ⟨.isrClr, rfl, hisr⟩
    | false => exact State.exists_idleOp hphase hisr

theorem State.refusal_of_legal {s : State} (h : Legal s) : s.refusal = none := by
  simp [State.refusal, h.wellFormed, h.phase]

theorem step_of_unscheduled {s : State} {i : Instr} (hrefusal : s.refusal = none)
    (hsched : s.sched = []) (hi : s.unscheduled = some i) :
    step s = exec i { s with draws := s.draws + 1 } := by
  simp [step, fetch, hrefusal, hsched, hi]

/-! ### Invariants -/

/-- An invariant that ignores the model's own fields and that every operation keeps is kept. -/
theorem kept_of_exec {Q : State → Prop}
    (hmodel : ∀ s sched draws, Q s → Q { s with sched := sched, draws := draws })
    (hexec : ∀ i s t, Q s → exec i s = .next t → Q t) : Kept Q :=
  ⟨hexec, step_keeps hmodel hexec⟩

/-! ### What BUILD sets (40_matrix_builder.md R104, R110 to R115) -/

theorem mem_modPos {cfg : Config} {i : Nat} (hi : i < 8) {p : Coord} :
    p ∈ modPos cfg i ↔ ModifierSets cfg i p := by
  interval_cases i <;> simp [modPos, ModifierSets]

/-- The modifiers' part of BUILD sets the bits of the pressed modifiers among those it visits. -/
theorem bit_foldl_modifiers (cfg : Config) (mods : Byte) (is : List Nat) (m : ScanMatrix) (p : Coord)
    (hr : p.r < 8) (hb : p.b < 8) :
    ScanMatrix.bit
        (is.foldl (fun m i => if mods.getLsbD i then setbits m (modPos cfg i) else m) m) p = true ↔
      ScanMatrix.bit m p = true ∨ ∃ i ∈ is, mods.getLsbD i = true ∧ p ∈ modPos cfg i := by
  induction is generalizing m with
  | nil => simp
  | cons i is ih =>
    rw [List.foldl_cons, ih]
    by_cases hi : mods.getLsbD i = true
    · simp [hi, bit_setbits _ _ _ hr hb, or_assoc]
    · simp [hi]

theorem bit_buildMods (cfg : Config) (mods : Byte) (p : Coord) (hr : p.r < 8) (hb : p.b < 8) :
    ScanMatrix.bit (buildMods cfg mods) p = true ↔
      ∃ i, i < 8 ∧ mods.getLsbD i = true ∧ ModifierSets cfg i p := by
  rw [buildMods, bit_foldl_modifiers cfg mods _ _ p hr hb]
  simp only [ScanMatrix.bit_clear, Bool.false_eq_true, false_or, List.mem_range]
  exact exists_congr fun i => and_congr_right fun hi => and_congr_right fun _ => mem_modPos hi

/-- A code read through KEYMAP sets its key's bit and those of the shift keys it forces. -/
theorem bit_applyResult (cfg : Config) (acc : Built) (c : Code) (k : KeyResult) (p : Coord)
    (hr : p.r < 8) (hb : p.b < 8) :
    ScanMatrix.bit (applyResult cfg acc c k).matrix p = true ↔
      ScanMatrix.bit acc.matrix p = true ∨ ∃ q caps sym, k = .key q caps sym ∧
        (p = q ∨ (caps = true ∧ p = cfg.capsPos) ∨ (sym = true ∧ p = cfg.symPos)) := by
  cases k with
  | key q caps sym =>
    rw [applyResult, bit_setbits _ _ _ hr hb, List.mem_cons, mem_forcedPos]
    refine or_congr_right ⟨fun h => ⟨q, caps, sym, rfl, h⟩, ?_⟩
    rintro ⟨_, _, _, ⟨⟩, h⟩
    exact h
  | noMap => simp [applyResult]
  | resetK => simp [applyResult]
  | magicK => simp [applyResult]

theorem joyOverride_eq_some {cfg : Config} {mode : Bool} {c : Code} {q : Coord} :
    joyOverride cfg mode c = some q ↔ mode = true ∧ joyTarget cfg c = some q := by
  cases mode <;> simp [joyOverride]

theorem joyOverride_eq_none {cfg : Config} {mode : Bool} {c : Code} :
    joyOverride cfg mode c = none ↔ mode = false ∨ joyTarget cfg c = none := by
  cases mode <;> simp [joyOverride]

/-- One pressed code sets the bits it contributes (40_matrix_builder.md R110, R113, R115). -/
theorem bit_applyCode (cfg : Config) (mode : Bool) (acc : Built) (c : Code) (p : Coord)
    (hr : p.r < 8) (hb : p.b < 8) :
    ScanMatrix.bit (applyCode cfg mode acc c).matrix p = true ↔
      ScanMatrix.bit acc.matrix p = true ∨ Contributes cfg mode c p := by
  by_cases hempty : c = cfg.emptyCode
  · simp [applyCode, hempty, Contributes, ReadsKeyMap]
  · cases hjoy : joyOverride cfg mode c with
    | some q =>
      obtain ⟨rfl, htarget⟩ := joyOverride_eq_some.1 hjoy
      simp [applyCode, hempty, hjoy, Contributes, ReadsKeyMap, htarget,
        ScanMatrix.bit_setbit _ _ _ hr hb, @eq_comm _ q p]
    | none =>
      have hreads := joyOverride_eq_none.1 hjoy
      have hjoy' : ¬(mode = true ∧ joyTarget cfg c = some p) := by
        rw [← joyOverride_eq_some, hjoy]; simp
      simp [applyCode, hempty, hjoy, bit_applyResult _ _ _ _ _ hr hb, Contributes, ReadsKeyMap,
        hreads, hjoy']

/-- The pressed codes together set the bits that one of them contributes. -/
theorem bit_foldl_applyCode (cfg : Config) (mode : Bool) (codes : List Code) (acc : Built) (p : Coord)
    (hr : p.r < 8) (hb : p.b < 8) :
    ScanMatrix.bit (codes.foldl (applyCode cfg mode) acc).matrix p = true ↔
      ScanMatrix.bit acc.matrix p = true ∨ ∃ c ∈ codes, Contributes cfg mode c p := by
  induction codes generalizing acc with
  | nil => simp
  | cons c codes ih => simp [ih, bit_applyCode _ _ _ _ _ hr hb, or_assoc]

/-- BUILD's matrix, bit by bit: what a pressed modifier or a pressed code contributes. -/
theorem bit_buildOf (cfg : Config) (mode : Bool) (sn : Snapshot) (p : Coord)
    (hr : p.r < 8) (hb : p.b < 8) :
    ScanMatrix.bit (buildOf cfg mode sn).matrix p = true ↔
      (∃ i, i < 8 ∧ sn.mods.getLsbD i = true ∧ ModifierSets cfg i p) ∨
        ∃ c ∈ sn.codes, Contributes cfg mode c p := by
  rw [buildOf, bit_foldl_applyCode _ _ _ _ _ hr hb, bit_buildMods _ _ _ hr hb]

/-! ### Positions under a well-formed configuration (60_exceptions.md R236) -/

theorem Coord.b_le_of_real {p : Coord} (h : Coord.real p = true) : p.b ≤ 4 := by
  simp only [Coord.real, Bool.and_eq_true, decide_eq_true_eq] at h
  exact h.2

/-- The shift and GUI keys are real keys (R236 (d)). -/
theorem Config.shift_real {cfg : Config} (h : cfg.wf = true) :
    cfg.capsPos.b ≤ 4 ∧ cfg.symPos.b ≤ 4 ∧ cfg.guiPos.b ≤ 4 := by
  simp only [Config.wf, Config.checkD, Bool.and_eq_true] at h
  obtain ⟨⟨⟨⟨-, ⟨⟨hcaps, hsym⟩, hgui⟩, -⟩, -⟩, -⟩, -⟩ := h
  exact ⟨Coord.b_le_of_real hcaps, Coord.b_le_of_real hsym, Coord.b_le_of_real hgui⟩

theorem mem_of_lookup {β : Type} {l : List (Code × β)} {c : Code} {v : β}
    (h : l.lookup c = some v) : (c, v) ∈ l := by
  obtain ⟨l₁, l₂, rfl, -⟩ := List.lookup_eq_some_iff.1 h
  simp

/-- A joystick key's target is a real key (R236 (d)). -/
theorem joyTarget_real {cfg : Config} (h : cfg.wf = true) {c : Code} {p : Coord}
    (hp : joyTarget cfg c = some p) : p.b ≤ 4 := by
  simp only [Config.wf, Config.checkD, Bool.and_eq_true, List.all_eq_true] at h
  obtain ⟨⟨⟨⟨-, -, hjoy⟩, -⟩, -⟩, -⟩ := h
  exact Coord.b_le_of_real (hjoy _ (mem_of_lookup hp))

/-- A code that is no empty slot has a key-map result as R236 (a) asks. -/
theorem keyResult_ok {cfg : Config} (h : cfg.wf = true) {c : Code} (hc : c ≠ cfg.emptyCode) :
    cfg.resultOk (keyResult cfg c) = true := by
  cases hlookup : cfg.keymap.lookup c with
  | none => simp [keyResult, hlookup, Config.resultOk]
  | some k =>
    simp only [Config.wf, Config.checkA, Bool.and_eq_true, List.all_eq_true] at h
    obtain ⟨⟨⟨⟨⟨⟨hkeys, -⟩, -⟩, -⟩, -⟩, -⟩, -⟩ := h
    obtain ⟨-, hok⟩ := hkeys _ (mem_of_lookup hlookup)
    simpa [hc] using hok

/-- A key is a real one, or one of the two mode-switch positions (R236 (a)). -/
theorem key_real_or_virtual {cfg : Config} (h : cfg.wf = true) {c : Code} (hc : c ≠ cfg.emptyCode)
    {q : Coord} {caps sym : Bool} (hk : keyResult cfg c = .key q caps sym) :
    q.b ≤ 4 ∨ q = cfg.modeActPos ∨ q = cfg.modeDeactPos := by
  have hok := keyResult_ok h hc
  simp only [hk, Config.resultOk, Bool.and_eq_true, Bool.or_eq_true, decide_eq_true_eq] at hok
  tauto

/-- No modifier sets a bit above data bit 4. -/
theorem modifier_real {cfg : Config} (h : cfg.wf = true) {i : Nat} {p : Coord}
    (hp : ModifierSets cfg i p) : p.b ≤ 4 := by
  obtain ⟨hcaps, hsym, hgui⟩ := Config.shift_real h
  rcases hp with ⟨-, rfl⟩ | ⟨-, rfl⟩ | ⟨-, rfl | rfl⟩ | ⟨-, rfl⟩ <;> assumption

/-- A code sets no bit above data bit 4 but the two mode-switch positions. -/
theorem contributed_real_or_virtual {cfg : Config} (h : cfg.wf = true) {mode : Bool} {c : Code}
    {p : Coord} (hp : Contributes cfg mode c p) :
    p.b ≤ 4 ∨ p = cfg.modeActPos ∨ p = cfg.modeDeactPos := by
  obtain ⟨hcaps, hsym, -⟩ := Config.shift_real h
  rcases hp with ⟨-, -, hjoy⟩ | ⟨⟨hc, -⟩, q, caps, sym, hk, rfl | ⟨-, rfl⟩ | ⟨-, rfl⟩⟩
  · exact .inl (joyTarget_real h hjoy)
  · exact key_real_or_virtual h hc hk
  · exact .inl hcaps
  · exact .inl hsym

/-- BUILD sets no reserved bit but the two mode-switch positions (30_encoding.md R71). -/
theorem buildOf_reserved {cfg : Config} (h : cfg.wf = true) (mode : Bool) (sn : Snapshot) {p : Coord}
    (hp : 5 ≤ p.b) (hbit : ScanMatrix.bit (buildOf cfg mode sn).matrix p = true) :
    p = cfg.modeActPos ∨ p = cfg.modeDeactPos := by
  obtain ⟨hr, hb⟩ := ScanMatrix.bit_lt hbit
  have hlow : ¬p.b ≤ 4 := by omega
  rcases (bit_buildOf cfg mode sn p hr hb).1 hbit with ⟨i, -, -, hi⟩ | ⟨c, -, hc⟩
  · exact absurd (modifier_real h hi) hlow
  · exact (contributed_real_or_virtual h hc).resolve_left hlow

/-! ### Performing a sequence step by step -/

/-- The first operation's step, then the rest. -/
theorem perform_step {i : Instr} {rest : List Instr} {s t : State} {o : Out}
    (h : exec i s = .next t) (hrest : perform rest t = o) : perform (i :: rest) s = o :=
  (perform_cons h).trans hrest

/-- One sequence, then the rest. -/
theorem perform_seq {l rest : List Instr} {s t : State} {o : Out}
    (h : perform l s = .next t) (hrest : perform rest t = o) : perform (l ++ rest) s = o :=
  (perform_append h).trans hrest

/-- An operation that changes nothing can be repeated. -/
theorem perform_replicate_of_fixed {i : Instr} {s : State} (h : exec i s = .next s) (n : Nat) :
    perform (List.replicate n i) s = .next s := by
  induction n with
  | zero => rfl
  | succ n ih => exact perform_step h ih

/-! ### The compile loop (42_table_compiler.md R152, R154) -/

/-- Table memory after the CENTRYs of entries 0 to n - 1 of the inactive slot. -/
def State.compiledTable (s : State) : Nat → Memory
  | 0 => s.tbl
  | n + 1 => Memory.write (s.compiledTable n) (tableAddr s.inactive (BitVec.ofNat 8 n)).toNat
      (entry s.matrix (BitVec.ofNat 8 n))

theorem byte_eq_ofNat_iff {S : Byte} {n : Nat} (hn : n < 256) :
    S = BitVec.ofNat 8 n ↔ S.toNat = n := by
  rw [← BitVec.toNat_inj, BitVec.toNat_ofNat, Nat.mod_eq_of_lt hn]

/-- The entries written so far are the matrix's, and every other entry is as it was. -/
theorem State.read_compiledTable (s : State) {n : Nat} (hn : n ≤ 256) (slot : Slot) (S : Byte) :
    Memory.read (s.compiledTable n) (tableAddr slot S).toNat
      = if slot = 1 - s.act ∧ S.toNat < n then entry s.matrix S else s.entryAt slot S := by
  induction n with
  | zero => simp [State.compiledTable, State.entryAt, State.memRead]
  | succ n ih =>
    simp only [State.compiledTable, Memory.read_write, tableAddr_inj, ih (by omega),
      State.inactive_eq]
    by_cases hslot : slot = 1 - s.act
    · by_cases hS : S = BitVec.ofNat 8 n
      · have hlt : S.toNat < n + 1 := by rw [(byte_eq_ofNat_iff hn).1 hS]; omega
        simp [hslot, ← hS, hlt]
      · have hne : S.toNat ≠ n := fun h => hS ((byte_eq_ofNat_iff hn).2 h)
        have hlt : S.toNat < n + 1 ↔ S.toNat < n := by omega
        simp [hS, hlt]
    · simp only [hslot, false_and, if_false]

/-- CENTRY of an entry before the last goes on to the next one. -/
theorem exec_centry_of_ne_last {s : State} {S : Byte} (hphase : s.phase = .compile)
    (hisr : s.inIsr = false) (hS : S = s.cidx) (hlast : S ≠ 0xFF#8) :
    exec (.centry S) s = .next { s with
      tbl := Memory.write s.tbl (tableAddr s.inactive S).toNat (entry s.matrix S), cidx := S + 1 } :=
  exec_centry_next.2 ⟨⟨hphase, hisr, hS⟩, by simp [State.compileAdvance, State.memWrite, hlast]⟩

/-- CENTRY of the last entry goes on to P_PUBLISH. -/
theorem exec_centry_last {s : State} (hphase : s.phase = .compile) (hisr : s.inIsr = false)
    (hS : s.cidx = 0xFF#8) :
    exec (.centry 0xFF#8) s = .next { s with
      tbl := Memory.write s.tbl (tableAddr s.inactive 0xFF#8).toNat (entry s.matrix 0xFF#8)
      phase := .publish } :=
  exec_centry_next.2 ⟨⟨hphase, hisr, hS.symm⟩, by simp [State.compileAdvance, State.memWrite]⟩

/-- The first n CENTRYs of a compile. -/
theorem perform_centries {s : State} (hphase : s.phase = .compile) (hisr : s.inIsr = false)
    (hcidx : s.cidx = 0) {n : Nat} (hn : n ≤ 255) :
    perform ((List.range n).map fun j => .centry (BitVec.ofNat 8 j)) s
      = .next { s with tbl := s.compiledTable n, cidx := BitVec.ofNat 8 n } := by
  induction n with
  | zero =>
    show Host.Outcome.next s = .next { s with cidx := 0 }
    rw [← hcidx]
  | succ n ih =>
    have hlast : BitVec.ofNat 8 n ≠ 0xFF#8 := by
      rw [Ne, eq_comm, byte_eq_ofNat_iff (by omega)]
      show 255 ≠ n
      omega
    rw [List.range_succ, List.map_append, perform_append (ih (by omega)), BitVec.ofNat_add]
    exact perform_step (exec_centry_of_ne_last hphase hisr rfl hlast) rfl

theorem pseudoCompile_eq : pseudoCompile
    = ((List.range 255).map fun j => .centry (BitVec.ofNat 8 j)) ++ [.centry 0xFF#8] := by
  rw [pseudoCompile, List.range_succ, List.map_append]
  rfl

/-- A whole COMPILE fills the inactive slot and ends at P_PUBLISH. -/
theorem perform_pseudoCompile {s : State} (hphase : s.phase = .compile) (hisr : s.inIsr = false)
    (hcidx : s.cidx = 0) :
    perform pseudoCompile s
      = .next { s with tbl := s.compiledTable 256, cidx := 0xFF#8, phase := .publish } := by
  rw [pseudoCompile_eq, perform_append (perform_centries hphase hisr hcidx le_rfl)]
  exact perform_step (exec_centry_last hphase hisr rfl) rfl

/-- COMPILE leaves compile(M) in the inactive slot (42_table_compiler.md R150, R154). -/
theorem State.read_compiledTable_inactive (s : State) (S : Byte) :
    Memory.read (s.compiledTable 256) (tableAddr (1 - s.act) S).toNat = entry s.matrix S := by
  rw [s.read_compiledTable le_rfl, if_pos ⟨rfl, S.isLt⟩]

/-- COMPILE leaves the active slot as it was (42_table_compiler.md R153). -/
theorem State.read_compiledTable_active (s : State) (S : Byte) :
    Memory.read (s.compiledTable 256) (tableAddr s.act S).toNat = s.entryAt s.act S := by
  rw [s.read_compiledTable le_rfl, if_neg fun h => one_sub_ne s.act h.1.symm]

/-! ### The data cycle (10_state.md R31, 30_encoding.md R83) -/

/-- At P_COMPILE, with snapshot `sn` taken, its BUILD's result `b` in the registers and MODE latched. -/
def State.builtAndLatched (s : State) (sn : Snapshot) (usb : List Snapshot) (b : Built) : State :=
  { s with
    snap := sn
    usb := usb
    matrix := b.matrix
    rstReq := b.rstReq
    magReq := b.magReq
    events := s.events ++ b.unmapped.map Event.unmapped
    mode := latchedMode s.cfg b.matrix s.mode
    cidx := 0
    phase := .compile }

/-- A POLL with data takes the well-formed snapshot that waits (log entry 4). -/
theorem State.polled_of_waiting {s : State} {sn : Snapshot} {rest : List Snapshot}
    (husb : s.usb = sn :: rest) (hwf : sn.wf s.cfg = true) :
    s.polled = { s with snap := sn, phase := .build, usb := rest } := by
  simp [State.polled, State.answer, husb, fitSnapshot_of_wf hwf]

theorem perform_pollBuildLatch {s : State} {sn : Snapshot} {rest : List Snapshot}
    (hphase : s.phase = .poll) (hisr : s.inIsr = false) (husb : s.usb = sn :: rest)
    (hwf : sn.wf s.cfg = true) :
    perform [.pollData, .build, .latch] s
      = .next (s.builtAndLatched sn rest (buildOf s.cfg s.mode sn)) :=
  perform_step (exec_pollData_next.2 ⟨⟨hphase, hisr⟩, State.polled_of_waiting husb hwf⟩) <|
  perform_step (exec_build_next.2 ⟨⟨rfl, hisr⟩, rfl⟩) <|
  perform_step (exec_latch_next.2 ⟨⟨rfl, hisr⟩, rfl⟩) rfl

theorem perform_publishLedRst {s : State} (hphase : s.phase = .publish) (hisr : s.inIsr = false) :
    perform [.publish, .ledupd, .rstupd] s = .next { s with
      act := 1 - s.act
      led := ledOf (s.entryAt (1 - s.act) 0x00#8)
      rst := s.rstReq
      phase := if s.magReq then .magDi else .poll } :=
  perform_step (exec_publish_next.2 ⟨⟨hphase, hisr⟩, rfl⟩) <|
  perform_step (exec_ledupd_next.2 ⟨⟨rfl, hisr⟩, rfl⟩) <|
  perform_step (exec_rstupd_next.2 ⟨⟨rfl, hisr⟩, rfl⟩) rfl

/-- The state after a data cycle: `builtAndLatched`, compiled and published, the LED and RST following. -/
def State.cycled (s : State) (sn : Snapshot) (usb : List Snapshot) (b : Built) : State :=
  { s.builtAndLatched sn usb b with
    tbl := (s.builtAndLatched sn usb b).compiledTable 256
    cidx := 0xFF#8
    act := 1 - s.act
    led := ledOf (Memory.read ((s.builtAndLatched sn usb b).compiledTable 256)
      (tableAddr (1 - s.act) 0x00#8).toNat)
    rst := b.rstReq
    phase := if b.magReq then .magDi else .poll }

theorem perform_cycleToReset {s : State} {sn : Snapshot} {rest : List Snapshot}
    (hphase : s.phase = .poll) (hisr : s.inIsr = false) (husb : s.usb = sn :: rest)
    (hwf : sn.wf s.cfg = true) :
    perform cycleToReset s = .next (s.cycled sn rest (buildOf s.cfg s.mode sn)) := by
  have hcompile := perform_pseudoCompile
    (s := s.builtAndLatched sn rest (buildOf s.cfg s.mode sn)) rfl hisr rfl
  rw [cycleToReset, List.append_assoc]
  exact perform_seq (perform_pollBuildLatch hphase hisr husb hwf) <|
    perform_seq hcompile (perform_publishLedRst rfl hisr)

/-- The published table is compile of the built matrix. -/
theorem State.holdsTable_cycled (s : State) (sn : Snapshot) (usb : List Snapshot) (b : Built) :
    HoldsTable (s.cycled sn usb b) (1 - s.act) b.matrix :=
  (s.builtAndLatched sn usb b).read_compiledTable_inactive

/-- The table that was active is as it was (43_publication.md R174). -/
theorem State.entryAt_cycled (s : State) (sn : Snapshot) (usb : List Snapshot) (b : Built) (S : Byte) :
    (s.cycled sn usb b).entryAt s.act S = s.entryAt s.act S :=
  (s.builtAndLatched sn usb b).read_compiledTable_active S

theorem ledOf_eq_true {e : Byte} : ledOf e = true ↔ e ≠ 0xFF#8 := by simp [ledOf]

/-- LED is on exactly if the published entry 0x00 shows a key (45_aux_signaling.md R201). -/
theorem State.led_cycled (s : State) (sn : Snapshot) (usb : List Snapshot) (b : Built) :
    (s.cycled sn usb b).led = true ↔ entry b.matrix 0x00#8 ≠ 0xFF#8 := by
  rw [← s.holdsTable_cycled sn usb b 0x00#8]
  exact ledOf_eq_true

/-! ### The magic handshake (45_aux_signaling.md R205 to R213) -/

theorem exec_magWrise_wait {s : State} (hphase : s.phase = .magRise) (hisr : s.inIsr = false)
    (hedge : ¬(s.monPrev = some false ∧ s.monIn = true)) :
    exec .magWrise s = .next { s with monPrev := some s.monIn } := by
  have hsaw : sawRise s.monPrev s.monIn = false := by simpa [sawRise] using hedge
  exact exec_magWrise_next.2 ⟨⟨hphase, hisr⟩, by simp [hsaw, ← hphase]⟩

theorem exec_magWrise_edge {s : State} (hphase : s.phase = .magRise) (hisr : s.inIsr = false)
    (hprev : s.monPrev = some false) (hmon : s.monIn = true) :
    exec .magWrise s = .next { s with phase := .magFall, monPrev := some true } :=
  exec_magWrise_next.2 ⟨⟨hphase, hisr⟩, by simp [sawRise, hprev, hmon]⟩

theorem exec_magWfall_wait {s : State} (hphase : s.phase = .magFall) (hisr : s.inIsr = false)
    (hedge : ¬(s.monPrev = some true ∧ s.monIn = false)) :
    exec .magWfall s = .next { s with monPrev := some s.monIn } := by
  have hsaw : sawFall s.monPrev s.monIn = false := by simpa [sawFall] using hedge
  exact exec_magWfall_next.2 ⟨⟨hphase, hisr⟩, by simp [hsaw, ← hphase]⟩

theorem exec_magWfall_edge {s : State} (hphase : s.phase = .magFall) (hisr : s.inIsr = false)
    (hprev : s.monPrev = some true) (hmon : s.monIn = false) :
    exec .magWfall s = .next { s with phase := .magAssert, monPrev := some false } :=
  exec_magWfall_next.2 ⟨⟨hphase, hisr⟩, by simp [sawFall, hprev, hmon]⟩

/-- With MON_IN held, the first sample is kept and the further ones change nothing. -/
theorem perform_magWrise_wait {s : State} (hphase : s.phase = .magRise) (hisr : s.inIsr = false)
    (hedge : ¬(s.monPrev = some false ∧ s.monIn = true)) (n : Nat) :
    perform (List.replicate (n + 1) .magWrise) s = .next { s with monPrev := some s.monIn } :=
  have hfixed := exec_magWrise_wait (s := { s with monPrev := some s.monIn }) hphase hisr (by simp)
  perform_step (exec_magWrise_wait hphase hisr hedge) (perform_replicate_of_fixed hfixed n)

/-- MAG_DI and the wait for the rising edge, MON_IN going low and high. -/
theorem perform_magicRise {s : State} (hphase : s.phase = .magDi) (hisr : s.inIsr = false)
    (lows : Nat) :
    perform ([.magDi, .hostmon false] ++ List.replicate (lows + 1) .magWrise
        ++ [.hostmon true, .magWrise]) s
      = .next { s with ie := false, monPrev := some true, monIn := true, phase := .magFall } := by
  have hwait := perform_magWrise_wait
    (s := { s with ie := false, monPrev := none, monIn := false, phase := .magRise })
    rfl hisr (by simp) lows
  rw [List.append_assoc]
  refine perform_seq (perform_step (exec_magDi_next.2 ⟨⟨hphase, hisr⟩, rfl⟩) <|
    perform_step (exec_hostmon_next.2 rfl) rfl) ?_
  exact perform_seq hwait <| perform_step (exec_hostmon_next.2 rfl) <|
    perform_step (exec_magWrise_edge rfl hisr rfl rfl) rfl

/-- The falling edge and the rest of MAGIC. -/
theorem perform_magicFall {s : State} (hphase : s.phase = .magFall) (hisr : s.inIsr = false)
    (hprev : s.monPrev = some true) :
    perform [.hostmon false, .magWfall, .magAssert, .magHold, .magRel, .magEi] s
      = .next { s with
          ie := true, monPrev := some false, monIn := false, mag := false, phase := .poll } :=
  perform_step (exec_hostmon_next.2 rfl) <|
  perform_step (exec_magWfall_edge hphase hisr hprev rfl) <|
  perform_step (exec_magAssert_next.2 ⟨⟨rfl, hisr⟩, rfl⟩) <|
  perform_step (exec_magHold_next.2 ⟨⟨rfl, hisr⟩, rfl⟩) <|
  perform_step (exec_magRel_next.2 ⟨⟨rfl, hisr⟩, rfl⟩) <|
  perform_step (exec_magEi_next.2 ⟨⟨rfl, hisr⟩, rfl⟩) rfl

/-- MAGIC with any number of further samples of each level ends at P_POLL. -/
theorem perform_magicWithHost {s : State} (hphase : s.phase = .magDi) (hisr : s.inIsr = false)
    (lows highs : Nat) :
    perform (magicWithHost lows highs) s
      = .next { s with
          ie := true, monPrev := some false, monIn := false, mag := false, phase := .poll } := by
  have hwait := perform_replicate_of_fixed (i := .magWfall) (exec_magWfall_wait
    (s := { s with ie := false, monPrev := some true, monIn := true, phase := .magFall })
    rfl hisr (by simp)) highs
  rw [magicWithHost, List.append_assoc, perform_append (perform_magicRise hphase hisr lows),
    perform_append hwait]
  exact perform_magicFall rfl hisr rfl

end Sys2Proof.Machine

namespace Sys2Proof.Proofs

open Sys2Proof.Machine Sys2Proof.Safety

/-- Settles O51: both levels of `lineLevel`. -/
theorem outputPortsFollowTheRegisters : Obligations.OutputPortsFollowTheRegisters := by
  intro s
  refine ⟨rfl, rfl, ?_, ?_, ?_, ?_⟩ <;> intro h <;> simp [State.ledOut, State.magicOut, h]

/-- Settles O3: the unscheduled operation is enabled, and an enabled operation completes. -/
theorem unscheduledStepTakesAnEnabledOperation :
    Obligations.UnscheduledStepTakesAnEnabledOperation := by
  intro s hlegal hsched
  obtain ⟨i, hi, henabled⟩ := State.exists_unscheduled hlegal.phase
  have hstep := step_of_unscheduled (State.refusal_of_legal hlegal) hsched hi
  have hdraw : enabled i { s with draws := s.draws + 1 } = true :=
    (enabled_modelFields i s s.sched _).trans henabled
  obtain ⟨t, ht⟩ := (exec_completes_iff i _).2 hdraw
  exact ⟨i, t, henabled, hstep, hstep.trans ht⟩

/-- Settles O56: each step is one of those `exec_cases` lists, and writes its own registers alone. -/
theorem onlyTheOwnersWriteEachRegister : Obligations.OnlyTheOwnersWriteEachRegister := by
  intro i s t h
  rcases exec_cases h with
    ⟨rfl, hp, -, rfl⟩ | ⟨rfl, hp, -, rfl⟩ | ⟨rfl, hp, -, rfl⟩ | ⟨rfl, hp, -, rfl⟩ |
    ⟨rfl, hp, -, rfl⟩ | ⟨S, rfl, hp, -, -, rfl⟩ | ⟨rfl, hp, -, rfl⟩ | ⟨rfl, hp, -, rfl⟩ |
    ⟨rfl, hp, -, rfl⟩ | ⟨rfl, hp, -, rfl⟩ | ⟨rfl, hp, -, rfl⟩ | ⟨rfl, hp, -, rfl⟩ |
    ⟨rfl, hp, -, rfl⟩ | ⟨rfl, hp, -, rfl⟩ | ⟨rfl, hp, -, rfl⟩ | ⟨rfl, hp, -, rfl⟩ |
    ⟨rfl, rfl⟩ | ⟨S, rfl, -, -, -, -, rfl⟩ | ⟨rfl, -, rfl⟩ | ⟨S, rfl, rfl⟩ | ⟨m, rfl, rfl⟩
  all_goals simp [phaseOf, *]

/-- The owners of SNAP and of the matrix, and that the configuration has none. -/
theorem exec_keeps_snap_matrix_cfg {i : Instr} {s t : State} (h : exec i s = .next t) :
    (i ≠ .pollData → t.snap = s.snap) ∧ (i ≠ .build → t.matrix = s.matrix) ∧ t.cfg = s.cfg := by
  obtain ⟨-, -, -, -, -, -, -, -, -, -, -, -, hsnap, hmatrix, -, -, -, -, -, -, hcfg, -⟩ :=
    onlyTheOwnersWriteEachRegister i s t h
  exact ⟨not_imp_comm.1 hsnap, not_imp_comm.1 hmatrix, hcfg⟩

/-- Settles O53: a POLL with data takes an answer of the block's shape, and nothing else writes SNAP. -/
theorem everyStepKeepsTheSnapshotSlots : Obligations.EveryStepKeepsTheSnapshotSlots := by
  refine kept_of_exec (fun _ _ _ hs => hs) ?_
  intro i s t hs h
  by_cases hi : i = .pollData
  · subst hi
    obtain ⟨-, rfl⟩ := exec_pollData_next.1 h
    exact s.wf_answer
  · obtain ⟨hsnap, -, hcfg⟩ := exec_keeps_snap_matrix_cfg h
    rw [hsnap hi, hcfg]
    exact hs

/-- Settles O52: BUILD sets none but the two positions, and nothing else writes the matrix. -/
theorem everyStepKeepsReservedMatrixBitsClear :
    Obligations.EveryStepKeepsReservedMatrixBitsClear := by
  refine kept_of_exec (fun _ _ _ hs => ⟨hs.wellFormed, hs.reserved⟩) ?_
  intro i s t hs h
  by_cases hi : i = .build
  · subst hi
    obtain ⟨-, rfl⟩ := exec_build_next.1 h
    exact ⟨hs.wellFormed, fun _ => buildOf_reserved hs.wellFormed s.mode s.snap⟩
  · obtain ⟨-, hmatrix, hcfg⟩ := exec_keeps_snap_matrix_cfg h
    exact ⟨hcfg ▸ hs.wellFormed, by rw [hmatrix hi, hcfg]; exact hs.reserved⟩

/-- Settles O59: `perform_cycleToReset` gives the state after the cycle, and `perform_magicWithHost` goes on
from it where the magic key is held. -/
theorem dataCyclePublishesTheSnapshot : Obligations.DataCyclePublishesTheSnapshot := by
  intro s sn rest hphase hisr husb hwf
  have hcycle := perform_cycleToReset hphase hisr husb hwf
  refine ⟨_, hcycle, State.holdsTable_cycled s sn rest _, rfl, State.entryAt_cycled s sn rest _, rfl,
    State.led_cycled s sn rest _, rfl, ?_, ?_, rfl, rfl, rfl, rfl, hisr⟩
  · intro hmag
    have hdi : (s.cycled sn rest (buildOf s.cfg s.mode sn)).phase = .magDi := by
      simp [State.cycled, hmag]
    refine ⟨hdi, fun lows highs => ?_⟩
    rw [perform_append hcycle]
    exact perform_magicWithHost hdi hisr lows highs
  · intro hmag
    exact ⟨by simp [State.cycled, hmag], fun _ _ => by simpa [pseudoCycle] using hcycle⟩

end Sys2Proof.Proofs
end

section
/-! PROOFS. The memory family (20_memory.md): the one store to table memory, its canonical form, and the step
at a scheduled word. -/

namespace Sys2Proof.Machine

/-- Table memory after any operation: as it was, or as CENTRY's one store leaves it (20_memory.md R58). -/
theorem exec_tbl_cases {i : Instr} {s t : State} (h : exec i s = .next t) :
    t.tbl = s.tbl ∨ ∃ S, i = .centry S ∧
      t.tbl = Memory.write s.tbl (tableAddr (1 - s.act) S).toNat (entry s.matrix S) := by
  by_cases hstore : ∃ S, i = .centry S
  · obtain ⟨S, rfl⟩ := hstore
    obtain ⟨-, rfl⟩ := exec_centry_next.1 h
    exact .inr ⟨S, rfl, rfl⟩
  · obtain ⟨htbl, -⟩ := Proofs.onlyTheOwnersWriteEachRegister i s t h
    exact .inl (not_imp_comm.1 htbl hstore)

/-- The step at a scheduled word that names an operation (20_memory.md R59; log entry 1). -/
theorem step_of_scheduled {s : State} {w : OpWord} {rest : List OpWord} {i : Instr}
    (hrefusal : s.refusal = none) (hsched : s.sched = w :: rest) (hi : decode w = .op i) :
    step s = exec i { s with sched := rest } := by
  simp [step, fetch, hrefusal, hsched, hi]

end Sys2Proof.Machine

namespace Sys2Proof.Proofs

open Sys2Proof.Machine Sys2Proof.Safety

/-- Settles O54: the one store there is goes to a 9-bit address, and `Memory.wf_write` keeps the form. -/
theorem everyStepKeepsTableMemoryCanonical : Obligations.EveryStepKeepsTableMemoryCanonical := by
  refine kept_of_exec (fun _ _ _ hs => hs) ?_
  intro i s t hs h
  obtain hsame | ⟨S, -, hwrite⟩ := exec_tbl_cases h
  · rw [hsame]
    exact hs
  · rw [hwrite]
    exact Memory.wf_write (tableAddr (1 - s.act) S).isLt _ hs

/-- Settles O57: a read elsewhere than at CENTRY's store gives the byte that was there. -/
theorem onlyCentryStoresToTableMemory : Obligations.OnlyCentryStoresToTableMemory := by
  intro i s t h a ha
  obtain hsame | ⟨S, hi, hwrite⟩ := exec_tbl_cases h
  · rw [hsame]
  · rw [hwrite, Memory.read_write, if_neg (ha S hi)]

/-- Settles O2: a legal state is not refused, and its first scheduled word is taken. -/
theorem stepRunsTheScheduledOperation : Obligations.StepRunsTheScheduledOperation := by
  intro s w rest i hlegal hsched hi
  exact step_of_scheduled (State.refusal_of_legal hlegal) hsched hi

end Sys2Proof.Proofs
end

section
/-! PROOFS. The encoding family (30_encoding.md): the fields of a word, the decoder and the encoder, the
reserved words, the assembler, and the operations that have a step. -/

namespace Sys2Proof

/-! ### The fields of a word (30_encoding.md R75) -/

/-- A word is made of its three fields. -/
theorem OpWord.pack_fields (w : OpWord) :
    OpWord.pack (w.extractLsb' 12 4) (w.extractLsb' 8 4) (w.extractLsb' 0 8) = w := by
  have hupper : w.extractLsb' 12 4 ++ w.extractLsb' 8 4 = w.extractLsb' 8 8 :=
    BitVec.extractLsb'_append_extractLsb'_eq_extractLsb' rfl
  rw [OpWord.pack, hupper]
  exact BitVec.extractLsb'_append_extractLsb' (w := 8) (len := 8)

@[simp] theorem OpWord.op_pack (op sub : BitVec 4) (imm8 : Byte) :
    OpWord.op (OpWord.pack op sub imm8) = op := by
  rw [OpWord.op, OpWord.pack, BitVec.extractLsb'_append_eq_of_le (by decide)]
  exact BitVec.extractLsb'_append_eq_left

@[simp] theorem OpWord.sub_pack (op sub : BitVec 4) (imm8 : Byte) :
    (OpWord.pack op sub imm8).extractLsb' 8 4 = sub := by
  rw [OpWord.pack, BitVec.extractLsb'_append_eq_of_le (by decide)]
  exact BitVec.extractLsb'_append_eq_right

/-- A word with an operand byte keeps the low 8 bits of the word it is taken from. -/
theorem OpWord.pack_imm8 (op sub : BitVec 4) (w : OpWord) :
    OpWord.pack op sub (OpWord.imm8 w) = OpWord.pack op sub 0 ||| (w &&& 0x00FF#16) := by
  have hlow : w &&& 0x00FF#16 = 0#8 ++ OpWord.imm8 w := by
    have hw : w.extractLsb' 8 8 ++ OpWord.imm8 w = w := BitVec.extractLsb'_append_extractLsb'
    have hmask : 0x00FF#16 = 0#8 ++ BitVec.allOnes 8 := rfl
    rw [hmask, ← hw, BitVec.and_append, BitVec.and_zero, BitVec.and_allOnes, hw]
  rw [hlow, OpWord.pack, OpWord.pack, BitVec.or_append, BitVec.or_zero]
  exact congrArg _ BitVec.zero_or.symm

/-- HOSTMON's word keeps bit 8 of the word its flag is taken from. -/
theorem OpWord.pack_flag (w : OpWord) :
    OpWord.pack 0xD (if OpWord.flag w then 1 else 0) 0 = 0xD000#16 ||| (w &&& 0x0100#16) := by
  have hbit : w &&& 0x0100#16 = if OpWord.flag w then 0x0100#16 else 0 := BitVec.and_twoPow w 8
  rw [hbit]
  cases OpWord.flag w <;> rfl

/-! ### The decoder and the encoder (30_encoding.md R76 to R78, R81) -/

/-- The round trips of `Laws.RoundTrip`, for every operation. -/
theorem decode_encode (i : Instr) : decode (encode i) = .op i := by
  cases i with
  | init => exact Laws.RoundTrip.init
  | pollData => exact Laws.RoundTrip.pollData
  | pollNodata => exact Laws.RoundTrip.pollNodata
  | build => exact Laws.RoundTrip.build
  | latch => exact Laws.RoundTrip.latch
  | centry S => exact Laws.RoundTrip.centry S
  | publish => exact Laws.RoundTrip.publish
  | ledupd => exact Laws.RoundTrip.ledupd
  | rstupd => exact Laws.RoundTrip.rstupd
  | magDi => exact Laws.RoundTrip.magDi
  | magWrise => exact Laws.RoundTrip.magWrise
  | magWfall => exact Laws.RoundTrip.magWfall
  | magAssert => exact Laws.RoundTrip.magAssert
  | magHold => exact Laws.RoundTrip.magHold
  | magRel => exact Laws.RoundTrip.magRel
  | magEi => exact Laws.RoundTrip.magEi
  | edge => exact Laws.RoundTrip.edge
  | isrRun S => exact Laws.RoundTrip.isrRun S
  | isrClr => exact Laws.RoundTrip.isrClr
  | hostsel S => exact Laws.RoundTrip.hostsel S
  | hostmon m => exact Laws.RoundTrip.hostmon m

/-- An operation the decoder answers is that of a matching row. -/
theorem decode_eq_op {w : OpWord} {i : Instr} (h : decode w = .op i) :
    ∃ row ∈ opTable, w &&& row.mask = row.value ∧ row.make w = i := by
  unfold decode at h
  split at h
  · cases h
  · split at h
    · next row hfind =>
      exact ⟨row, List.mem_of_find?_eq_some hfind, by simpa using List.find?_some hfind,
        Verdict.op.inj h⟩
    · cases h

/-- A row's operation has the row's value in its word, and the word's bits outside the mask, which are
its operand, are those of the word it is made from. -/
theorem encode_make (w : OpWord) :
    ∀ row ∈ opTable, encode (row.make w) = row.value ||| (w &&& ~~~row.mask) := by
  have hplain (v : OpWord) : v = v ||| (w &&& ~~~0xFFFF#16) := by
    rw [show ~~~0xFFFF#16 = 0#16 from rfl, BitVec.and_zero, BitVec.or_zero]
  have hbyte (op : BitVec 4) := OpWord.pack_imm8 op 0 w
  simp only [opTable, List.cons_append, List.nil_append, List.forall_mem_cons]
  exact ⟨hplain _, hplain _, hplain _, hplain _, hplain _, hbyte 0x4, hplain _, hplain _, hplain _,
    hplain _, hplain _, hplain _, hplain _, hplain _, hplain _, hplain _, hplain _, hbyte 0xA,
    hplain _, hbyte 0xC, OpWord.pack_flag w, List.forall_mem_nil _⟩

/-- A word that matches a row is the word of the row's operation. -/
theorem encode_make_of_match {w : OpWord} {row : OpRow} (hrow : row ∈ opTable)
    (hmatch : w &&& row.mask = row.value) : encode (row.make w) = w := by
  rw [encode_make w row hrow, ← hmatch, ← BitVec.and_or_distrib_left, BitVec.or_not_self,
    BitVec.and_allOnes]

theorem decode_eq_op_iff {w : OpWord} {i : Instr} : decode w = .op i ↔ w = encode i := by
  constructor
  · intro h
    obtain ⟨row, hrow, hmatch, rfl⟩ := decode_eq_op h
    exact (encode_make_of_match hrow hmatch).symm
  · rintro rfl
    exact decode_encode i

/-- Two rows of the table differ in a bit that both masks keep. -/
theorem opTable_values_differ :
    opTable.Pairwise fun a b => a.value &&& b.mask ≠ b.value &&& a.mask := by decide

/-! ### The reserved words (30_encoding.md R80) -/

theorem OpWord.wf_encode (i : Instr) : OpWord.wf (encode i) = true := by
  cases i
  case centry S => revert S; decide
  case isrRun S => revert S; decide
  case hostsel S => revert S; decide
  case hostmon m => revert m; decide
  all_goals rfl

/-- Among the words with `imm8` = 0, one that R80 does not reserve names an operation. -/
theorem decode_pack_zero_ne_reserved : ∀ op sub : BitVec 4,
    OpWord.wf (OpWord.pack op sub 0) = true → decode (OpWord.pack op sub 0) ≠ .reserved := by
  decide

/-- The words with an operand byte name CENTRY, ISR_RUN and HOSTSEL. -/
theorem decode_pack_byte_ne_reserved {op : BitVec 4} (S : Byte)
    (hop : op = 0x4 ∨ op = 0xA ∨ op = 0xC) : decode (OpWord.pack op 0 S) ≠ .reserved := by
  rcases hop with rfl | rfl | rfl
  · exact (decode_encode (.centry S)).trans_ne nofun
  · exact (decode_encode (.isrRun S)).trans_ne nofun
  · exact (decode_encode (.hostsel S)).trans_ne nofun

/-- Only the three operations with an operand byte have a nonzero `imm8`, and they have `sub` = 0. -/
theorem OpWord.fields_of_wf {w : OpWord} (hwf : OpWord.wf w = true)
    (himm : w.extractLsb' 0 8 ≠ 0) :
    (w.extractLsb' 12 4 = 0x4 ∨ w.extractLsb' 12 4 = 0xA ∨ w.extractLsb' 12 4 = 0xC) ∧
      w.extractLsb' 8 4 = 0 := by
  simp only [OpWord.wf, OpWord.reservedSub, OpWord.reservedImm, Bool.not_eq_true',
    Bool.or_eq_false_iff, Bool.and_eq_false_imp, Bool.and_eq_true, bne_iff_ne, bne_eq_false_iff_eq]
    at hwf
  obtain ⟨⟨⟨⟨-, hsub⟩, -⟩, -⟩, himm8⟩ := hwf
  have hop : w.extractLsb' 12 4 = 0x4 ∨ w.extractLsb' 12 4 = 0xA ∨ w.extractLsb' 12 4 = 0xC := by
    by_contra hother
    simp only [not_or] at hother
    exact himm (himm8 ⟨⟨hother.1, hother.2.1⟩, hother.2.2⟩)
  exact ⟨hop, hsub (by rcases hop with h | h | h <;> simp [h])⟩

theorem decode_ne_reserved_of_wf {w : OpWord} (hwf : OpWord.wf w = true) :
    decode w ≠ .reserved := by
  have hfields := OpWord.pack_fields w
  by_cases himm : w.extractLsb' 0 8 = 0
  · rw [himm] at hfields
    rw [← hfields] at hwf ⊢
    exact decode_pack_zero_ne_reserved _ _ hwf
  · obtain ⟨hop, hsub⟩ := OpWord.fields_of_wf hwf himm
    rw [← hfields, hsub]
    exact decode_pack_byte_ne_reserved _ hop

/-- The decoder and R80's list agree on what is reserved. -/
theorem decode_eq_reserved_iff {w : OpWord} : decode w = .reserved ↔ OpWord.wf w = false := by
  cases hdecode : decode w with
  | reserved =>
    refine iff_of_true rfl (Bool.eq_false_iff.2 fun hwf => ?_)
    exact decode_ne_reserved_of_wf hwf hdecode
  | op i =>
    rw [decode_eq_op_iff.1 hdecode, OpWord.wf_encode]
    simp

/-! ### The assembler (30_encoding.md R82) -/

/-- Each of the 16 digits is found at its own place. -/
theorem idxOf?_hexDigits : ∀ n < 16, hexDigits.idxOf? (hexDigits.getD n '0') = some n := by decide

theorem parseByte_hexByte (S : Byte) : parseByte (hexByte S) = some S := by
  have := S.isLt
  simp only [parseByte, hexByte, idxOf?_hexDigits (S.toNat / 16) (by omega),
    idxOf?_hexDigits (S.toNat % 16) (by omega), Nat.div_add_mod, BitVec.ofNat_toNat,
    BitVec.setWidth_eq]

end Sys2Proof

namespace Sys2Proof.Machine

/-- A scheduled reserved word is refused by its name (60_exceptions.md R233; log entry 1). -/
theorem step_of_reserved {s : State} {w : OpWord} {rest : List OpWord}
    (hrefusal : s.refusal = none) (hsched : s.sched = w :: rest) (hw : decode w = .reserved) :
    step s = .refused (.reservedWord w) := by
  simp [step, fetch, hrefusal, hsched, hw]

/-- An idle operation without an operand is enabled at its phase, outside a service. -/
theorem idle_completes_iff {i : Instr} {s : State} {p : Phase} (hp : phaseOf i = some p)
    (hi : enabled i s = s.idleAt p) :
    (∃ t, exec i s = .next t) ↔ phaseOf i = some s.phase ∧ s.inIsr = false := by
  rw [exec_completes_iff, hi, State.idleAt_iff, hp, Option.some.injEq, @eq_comm _ p]

end Sys2Proof.Machine

namespace Sys2Proof.Proofs

open Sys2Proof.Machine Sys2Proof.Safety

/-- Settles O5: the round trip of each operation, and of each row of the table. -/
theorem decodingAndEncodingAgree : Obligations.DecodingAndEncodingAgree :=
  ⟨decode_encode, fun _ _ => decode_eq_op_iff.1⟩

/-- Settles O6: a word that R80 does not reserve is the word of an operation. -/
theorem reservedWordsAreThoseListed : Obligations.ReservedWordsAreThoseListed := by
  refine ⟨fun _ => decode_eq_reserved_iff, ?_⟩
  intro s w rest hlegal hsched hwf
  exact step_of_reserved (State.refusal_of_legal hlegal) hsched (decode_eq_reserved_iff.2 hwf)

/-- Settles O7: a word that matches a row is the word of the row's operation, and no two rows match. -/
theorem decoderFollowsTheTable : Obligations.DecoderFollowsTheTable := by
  intro w
  refine ⟨fun hop => if_pos hop, ?_, ?_, ?_⟩
  · intro _ _ row hrow hmatch
    exact decode_eq_op_iff.2 (encode_make_of_match hrow hmatch).symm
  · refine opTable_values_differ.imp fun {a b} hdiffer ⟨ha, hb⟩ => hdiffer ?_
    rw [← ha, ← hb, BitVec.and_assoc, BitVec.and_assoc, BitVec.and_comm a.mask]
  · intro hnone
    cases hdecode : decode w with
    | reserved => rfl
    | op i =>
      obtain ⟨row, hrow, hmatch, -⟩ := decode_eq_op hdecode
      exact absurd hmatch (hnone row hrow)

/-- Settles O9: a hexadecimal byte reads back, and the mnemonics are distinct. -/
theorem assemblerReadsWhatItWrites : Obligations.AssemblerReadsWhatItWrites := by
  intro i
  cases i
  case centry S => simp [assemble, asmParts, parseByte_hexByte]
  case isrRun S => simp [assemble, asmParts, parseByte_hexByte]
  case hostsel S => simp [assemble, asmParts, parseByte_hexByte]
  case hostmon m => revert m; decide
  all_goals decide

/-- Settles O10: an operation completes exactly where it is enabled. -/
theorem aStepExistsExactlyWhenEnabled : Obligations.AStepExistsExactlyWhenEnabled := by
  intro i s
  cases i
  case centry S => simp [exec_completes_iff, enabled, State.idleAt_iff, and_assoc]
  case isrRun S => simp [exec_completes_iff, enabled, State.canServe_iff, and_assoc]
  case isrClr => simp [exec_completes_iff, enabled]
  case edge => simp [exec_completes_iff, enabled]
  case hostsel S => simp [exec_completes_iff, enabled]
  case hostmon m => simp [exec_completes_iff, enabled]
  all_goals exact idle_completes_iff rfl rfl

/-- Settles O1: seven of the words are those of their operations, and R80 reserves the other two. -/
theorem decodesWordsOfTheSpec : Obligations.DecodesWordsOfTheSpec :=
  ⟨decode_encode .init, decode_encode .pollData, decode_encode (.centry 0xFF),
    decode_encode .magAssert, decode_encode (.isrRun 0xFD), decode_encode (.hostsel 0xFE),
    decode_encode (.hostmon true), decode_eq_reserved_iff.2 rfl, decode_eq_reserved_iff.2 rfl⟩

/-- Settles O8: op and sub are the fields the encoder packs. -/
theorem phaseNumbersTheIdleWords : Obligations.PhaseNumbersTheIdleWords := by
  intro i p hp
  cases i
  case edge => cases hp
  case isrRun S => cases hp
  case isrClr => cases hp
  case hostsel S => cases hp
  case hostmon m => cases hp
  all_goals
    cases hp
    simp [encode, Phase.code]

end Sys2Proof.Proofs
end

section
/-! PROOFS. The matrix builder family (40_matrix_builder.md): the two POLLs, what BUILD makes of each code
of the snapshot, and the no-data cycle. -/

namespace Sys2Proof.Machine

open Sys2Proof.Safety

/-! ### POLL and BUILD complete (40_matrix_builder.md R100, R101, R110) -/

section
variable {s : State}

theorem exec_pollData (hphase : s.phase = .poll) (hisr : s.inIsr = false) :
    exec .pollData s = .next s.polled :=
  exec_pollData_next.2 ⟨⟨hphase, hisr⟩, rfl⟩

theorem exec_pollNodata (hphase : s.phase = .poll) (hisr : s.inIsr = false) :
    exec .pollNodata s = .next
      { s with rstReq := nodataRstReq s.cfg s.rst, magReq := false, phase := .rst } :=
  exec_pollNodata_next.2 ⟨⟨hphase, hisr⟩, rfl⟩

theorem exec_build (hphase : s.phase = .build) (hisr : s.inIsr = false) :
    exec .build s = .next (s.withBuilt (buildOf s.cfg s.mode s.snap)) :=
  exec_build_next.2 ⟨⟨hphase, hisr⟩, rfl⟩

end

theorem nodataRstReq_driveLow {cfg : Config} (h : cfg.resetOnNodata = .driveLow) (rst : Bool) :
    nodataRstReq cfg rst = false := by
  simp [nodataRstReq, h]

theorem nodataRstReq_hold {cfg : Config} (h : cfg.resetOnNodata = .hold) (rst : Bool) :
    nodataRstReq cfg rst = rst := by
  simp [nodataRstReq, h]

/-- A no-data cycle copies the request of its POLL into RST and comes back to P_POLL (R101; 45_aux_signaling.md
R203). -/
theorem perform_pseudoCycleNodata {s : State} (hphase : s.phase = .poll) (hisr : s.inIsr = false) :
    perform pseudoCycleNodata s = .next
      { s with
        rstReq := nodataRstReq s.cfg s.rst, magReq := false, rst := nodataRstReq s.cfg s.rst } :=
  perform_step (exec_pollNodata hphase hisr) <|
  perform_step (exec_rstupd_next.2 ⟨⟨rfl, hisr⟩, rfl⟩) (by simp [perform, hphase])

/-! ### What BUILD does with one code (40_matrix_builder.md R110, R113, R115) -/

section
variable {cfg : Config} {mode : Bool} {c : Code}

/-- An empty slot contributes nothing (R115). -/
theorem applyCode_emptyCode (acc : Built) : applyCode cfg mode acc cfg.emptyCode = acc := by
  simp [applyCode]

theorem applyCode_of_reads (h : ReadsKeyMap cfg mode c) (acc : Built) :
    applyCode cfg mode acc c = applyResult cfg acc c (keyResult cfg c) := by
  obtain ⟨hempty, hjoy⟩ := h
  simp [applyCode, hempty, joyOverride_eq_none.2 hjoy]

/-- A code that is not read through KEYMAP touches at most the matrix. -/
theorem applyCode_of_not_reads (h : ¬ReadsKeyMap cfg mode c) (acc : Built) :
    ∃ m, applyCode cfg mode acc c = { acc with matrix := m } := by
  by_cases hempty : c = cfg.emptyCode
  · exact ⟨acc.matrix, by rw [hempty, applyCode_emptyCode]⟩
  · cases hjoy : joyOverride cfg mode c with
    | some p => exact ⟨ScanMatrix.setbit acc.matrix p, by simp [applyCode, hempty, hjoy]⟩
    | none => exact absurd ⟨hempty, joyOverride_eq_none.1 hjoy⟩ h

/-! ### What BUILD collects from the codes -/

variable {P : Built → Prop} {Q : Code → KeyResult → Prop}

/-- A fact P that the matrix has no say in, and that a code read as k makes true exactly if Q, holds after
the codes exactly if it held before or Q holds of a code read through KEYMAP. -/
theorem foldl_applyCode_iff (hmatrix : ∀ acc m, P { acc with matrix := m } ↔ P acc)
    (hresult : ∀ acc c k, P (applyResult cfg acc c k) ↔ P acc ∨ Q c k)
    (codes : List Code) (acc : Built) :
    P (codes.foldl (applyCode cfg mode) acc) ↔
      P acc ∨ ∃ c ∈ codes, ReadsKeyMap cfg mode c ∧ Q c (keyResult cfg c) := by
  induction codes generalizing acc with
  | nil => simp
  | cons c codes ih =>
    rw [List.foldl_cons, ih]
    by_cases hreads : ReadsKeyMap cfg mode c
    · simp [applyCode_of_reads hreads, hresult, hreads, or_assoc]
    · obtain ⟨m, hm⟩ := applyCode_of_not_reads hreads acc
      simp [hm, hmatrix, hreads]

theorem buildOf_iff (hmatrix : ∀ acc m, P { acc with matrix := m } ↔ P acc)
    (hresult : ∀ acc c k, P (applyResult cfg acc c k) ↔ P acc ∨ Q c k)
    (hclear : ∀ m, ¬P ⟨m, false, false, []⟩) (sn : Snapshot) :
    P (buildOf cfg mode sn) ↔
      ∃ c ∈ sn.codes, ReadsKeyMap cfg mode c ∧ Q c (keyResult cfg c) := by
  rw [buildOf, foldl_applyCode_iff hmatrix hresult, or_iff_right (hclear _)]

end

section
variable (cfg : Config) (mode : Bool)

/-- The reset key and nothing else raises RSTREQ (R117). -/
theorem rstReq_buildOf (sn : Snapshot) :
    (buildOf cfg mode sn).rstReq = true ↔
      ∃ c ∈ sn.codes, ReadsKeyMap cfg mode c ∧ keyResult cfg c = .resetK := by
  refine buildOf_iff (P := fun b => b.rstReq = true) (Q := fun _ k => k = .resetK)
    (fun _ _ => Iff.rfl) ?_ (by simp) sn
  intro acc c k
  cases k <;> simp [applyResult]

/-- The magic key and nothing else raises MAGREQ (R117). -/
theorem magReq_buildOf (sn : Snapshot) :
    (buildOf cfg mode sn).magReq = true ↔
      ∃ c ∈ sn.codes, ReadsKeyMap cfg mode c ∧ keyResult cfg c = .magicK := by
  refine buildOf_iff (P := fun b => b.magReq = true) (Q := fun _ k => k = .magicK)
    (fun _ _ => Iff.rfl) ?_ (by simp) sn
  intro acc c k
  cases k <;> simp [applyResult]

/-- The codes that KEYMAP does not map are collected (R118). -/
theorem mem_unmapped_buildOf (sn : Snapshot) (d : Code) :
    d ∈ (buildOf cfg mode sn).unmapped ↔
      d ∈ sn.codes ∧ ReadsKeyMap cfg mode d ∧ keyResult cfg d = .noMap := by
  have hcollected : d ∈ (buildOf cfg mode sn).unmapped ↔
      ∃ c ∈ sn.codes, ReadsKeyMap cfg mode c ∧ keyResult cfg c = .noMap ∧ d = c := by
    refine buildOf_iff (P := fun b => d ∈ b.unmapped) (Q := fun c k => k = .noMap ∧ d = c)
      (fun _ _ => Iff.rfl) ?_ (by simp) sn
    intro acc c k
    cases k <;> simp [applyResult, mem_insertCode, or_comm]
  rw [hcollected]
  constructor
  · rintro ⟨c, hc, hreads, hk, rfl⟩
    exact ⟨hc, hreads, hk⟩
  · rintro ⟨hd, hreads, hk⟩
    exact ⟨d, hd, hreads, hk, rfl⟩

theorem sorted_unmapped_applyCode {acc : Built} (h : acc.unmapped.Pairwise (· < ·)) (c : Code) :
    (applyCode cfg mode acc c).unmapped.Pairwise (· < ·) := by
  by_cases hreads : ReadsKeyMap cfg mode c
  · rw [applyCode_of_reads hreads]
    cases keyResult cfg c with
    | noMap => exact sorted_insertCode h
    | key p caps sym => exact h
    | resetK => exact h
    | magicK => exact h
  · obtain ⟨m, hm⟩ := applyCode_of_not_reads hreads acc
    rw [hm]
    exact h

/-- The unmapped codes stand in increasing order, each once (R118). -/
theorem sorted_unmapped_buildOf (sn : Snapshot) : (buildOf cfg mode sn).unmapped.Pairwise (· < ·) :=
  List.foldlRecOn (motive := fun b : Built => b.unmapped.Pairwise (· < ·)) sn.codes _ List.Pairwise.nil
    fun _ h c _ => sorted_unmapped_applyCode cfg mode h c

/-! ### Snapshots that build the same (40_matrix_builder.md R112, R120) -/

theorem Built.eq_of_fields {b b' : Built} (hmatrix : b.matrix = b'.matrix)
    (hrst : b.rstReq = b'.rstReq) (hmag : b.magReq = b'.magReq)
    (hunmapped : b.unmapped = b'.unmapped) : b = b' := by
  cases b
  cases b'
  simp_all

/-- BUILD sees the codes as a set: each part of its result is fixed by the modifiers and by which codes are
in the snapshot (R112). -/
theorem buildOf_congr {sn sn' : Snapshot} (hmods : sn.mods = sn'.mods)
    (hcodes : ∀ c, c ∈ sn.codes ↔ c ∈ sn'.codes) : buildOf cfg mode sn = buildOf cfg mode sn' := by
  apply Built.eq_of_fields
  · apply ScanMatrix.ext_bit
    intro p hr hb
    rw [Bool.eq_iff_iff, bit_buildOf cfg mode sn p hr hb, bit_buildOf cfg mode sn' p hr hb]
    simp only [hmods, hcodes]
  · rw [Bool.eq_iff_iff, rstReq_buildOf, rstReq_buildOf]
    simp only [hcodes]
  · rw [Bool.eq_iff_iff, magReq_buildOf, magReq_buildOf]
    simp only [hcodes]
  · have hsorted := sorted_unmapped_buildOf cfg mode
    refine (hsorted sn).eq_of_mem_iff (hsorted sn') fun d => ?_
    rw [mem_unmapped_buildOf, mem_unmapped_buildOf, hcodes]

theorem buildMods_zero : buildMods cfg 0 = ScanMatrix.clear := by
  simp [buildMods]

/-- Nothing pressed builds nothing (R120 (a)). -/
theorem buildOf_empty {sn : Snapshot} (hmods : sn.mods = 0)
    (hcodes : ∀ c ∈ sn.codes, c = cfg.emptyCode) :
    buildOf cfg mode sn = ⟨ScanMatrix.clear, false, false, []⟩ := by
  have hskip : ∀ acc : Built, ∀ c ∈ sn.codes, applyCode cfg mode acc c = acc := by
    intro acc c hc
    rw [hcodes c hc, applyCode_emptyCode]
  rw [buildOf, hmods, buildMods_zero, List.foldl_ext _ _ _ hskip, List.foldl_fixed]

end

end Sys2Proof.Machine

namespace Sys2Proof.Proofs

open Sys2Proof.Machine Sys2Proof.Safety

/-- Settles O16: `bit_buildOf` at each coordinate. -/
theorem buildSetsExactlyTheContributedBits : Obligations.BuildSetsExactlyTheContributedBits := by
  intro s hphase hisr
  exact ⟨_, exec_build hphase hisr, bit_buildOf s.cfg s.mode s.snap⟩

/-- Settles O17: each request is raised by its own key alone. -/
theorem buildRaisesTheRequests : Obligations.BuildRaisesTheRequests := by
  intro s hphase hisr
  exact ⟨_, exec_build hphase hisr, rstReq_buildOf s.cfg s.mode s.snap,
    magReq_buildOf s.cfg s.mode s.snap⟩

/-- Settles O18: the reported codes are the sorted list of the unmapped ones. -/
theorem buildReportsEachUnmappedCodeOnce : Obligations.BuildReportsEachUnmappedCodeOnce := by
  intro s hphase hisr
  exact ⟨_, _, exec_build hphase hisr, rfl, sorted_unmapped_buildOf s.cfg s.mode s.snap,
    mem_unmapped_buildOf s.cfg s.mode s.snap⟩

/-- Settles O19: the two snapshots have one result, by `buildOf_congr`. -/
theorem buildIgnoresOrderAndRepeats : Obligations.BuildIgnoresOrderAndRepeats := by
  intro s sn hphase hisr hmods hcodes
  refine ⟨_, exec_build hphase hisr, ?_⟩
  rw [← buildOf_congr s.cfg s.mode hmods hcodes]
  exact exec_build (s := { s with snap := sn }) hphase hisr

/-- Settles O21: an empty snapshot builds nothing, and appending no event leaves the history. -/
theorem emptySnapshotBuildsAllClear : Obligations.EmptySnapshotBuildsAllClear := by
  intro s hphase hisr hmods hcodes
  rw [exec_build hphase hisr, buildOf_empty s.cfg s.mode hmods hcodes]
  simp [State.withBuilt]

/-- Settles O14: whatever is answered is well-formed, and a well-formed waiting snapshot is the answer. -/
theorem pollDataTakesTheSnapshot : Obligations.PollDataTakesTheSnapshot := by
  intro s hphase hisr
  refine ⟨⟨s.answer, _, s.wf_answer, exec_pollData hphase hisr⟩, fun sn rest husb hwf => ?_⟩
  rw [exec_pollData hphase hisr, State.polled_of_waiting husb hwf]

/-- Settles O15: the word is the encoder's, and RSTREQ takes the value `nodataRstReq` gives it. -/
theorem pollNodataSkipsTheBuild : Obligations.PollNodataSkipsTheBuild := by
  refine ⟨decode_encode .pollNodata, fun s hphase hisr => ⟨fun hlow => ?_, fun hhold => ?_⟩⟩
  · rw [exec_pollNodata hphase hisr, nodataRstReq_driveLow hlow]
  · rw [exec_pollNodata hphase hisr, nodataRstReq_hold hhold]

/-- Settles O20: `buildOf` takes the snapshot, MODE and the configuration, and nothing else of the state. -/
theorem buildDependsOnSnapshotModeAndConfigurationAlone :
    Obligations.BuildDependsOnSnapshotModeAndConfigurationAlone := by
  intro s s' hphase hisr hphase' hisr' hsnap hmode hcfg
  have hbuild' := exec_build hphase' hisr'
  rw [← hsnap, ← hmode, ← hcfg] at hbuild'
  exact ⟨_, _, _, exec_build hphase hisr, hbuild', rfl, rfl, rfl, rfl, rfl⟩

/-- Settles O22: `State.withBuilt` writes these registers alone. -/
theorem buildFrame : Obligations.BuildFrame := by
  intro s hphase hisr
  exact ⟨_, exec_build hphase hisr, rfl, fun _ => rfl⟩

/-- Settles O60: `perform_pseudoCycleNodata`, for each value of RESET_ON_NODATA. -/
theorem noDataCycleFreezesTheTable : Obligations.NoDataCycleFreezesTheTable := by
  intro s hphase hisr
  refine ⟨fun hlow => ?_, fun hhold => ?_⟩
  · rw [perform_pseudoCycleNodata hphase hisr, nodataRstReq_driveLow hlow]
  · rw [perform_pseudoCycleNodata hphase hisr, nodataRstReq_hold hhold]

end Sys2Proof.Proofs
end

section
/-! PROOFS. The mode latch family (41_mode_latch.md): the value LATCH gives MODE, and that no other operation
gives it one. -/

namespace Sys2Proof.Machine

section
variable {cfg : Config} {m : ScanMatrix} {mode : Bool}

/-- Deactivate has priority (41_mode_latch.md R140, R142). -/
theorem latchedMode_of_deactivate (hdeact : ScanMatrix.bit m cfg.modeDeactPos = true) :
    latchedMode cfg m mode = false :=
  if_pos hdeact

theorem latchedMode_of_activate (hdeact : ScanMatrix.bit m cfg.modeDeactPos = false)
    (hact : ScanMatrix.bit m cfg.modeActPos = true) : latchedMode cfg m mode = true := by
  simp [latchedMode, hdeact, hact]

theorem latchedMode_of_neither (hdeact : ScanMatrix.bit m cfg.modeDeactPos = false)
    (hact : ScanMatrix.bit m cfg.modeActPos = false) : latchedMode cfg m mode = mode := by
  simp [latchedMode, hdeact, hact]

/-- A latched value that is new comes from its own virtual bit (41_mode_latch.md R145). -/
theorem virtualBit_of_latchedMode_ne (h : latchedMode cfg m mode ≠ mode) :
    (latchedMode cfg m mode = true → ScanMatrix.bit m cfg.modeActPos = true) ∧
      (latchedMode cfg m mode = false → ScanMatrix.bit m cfg.modeDeactPos = true) := by
  cases hdeact : ScanMatrix.bit m cfg.modeDeactPos with
  | true => simp [latchedMode_of_deactivate hdeact]
  | false =>
    cases hact : ScanMatrix.bit m cfg.modeActPos with
    | true => simp [latchedMode_of_activate hdeact hact]
    | false => exact absurd (latchedMode_of_neither hdeact hact) h

end

theorem exec_latch {s : State} (hphase : s.phase = .latch) (hisr : s.inIsr = false) :
    exec .latch s = .next
      { s with mode := latchedMode s.cfg s.matrix s.mode, cidx := 0, phase := .compile } :=
  exec_latch_next.2 ⟨⟨hphase, hisr⟩, rfl⟩

end Sys2Proof.Machine

namespace Sys2Proof.Proofs

open Sys2Proof.Machine

/-- Settles O24: MODE is LATCH's own register, and LATCH gives it a new value only from a virtual bit. -/
theorem modeChangesOnlyAtLatch : Obligations.ModeChangesOnlyAtLatch := by
  intro i s t h hmode
  obtain ⟨-, -, howner, -⟩ := onlyTheOwnersWriteEachRegister i s t h
  obtain rfl : i = .latch := howner hmode
  obtain ⟨-, rfl⟩ := exec_latch_next.1 h
  exact ⟨rfl, virtualBit_of_latchedMode_ne hmode⟩

/-- Settles O23: the word is the encoder's, and MODE takes the value `latchedMode` gives it. -/
theorem latchSetsAndClearsTheMode : Obligations.LatchSetsAndClearsTheMode := by
  refine ⟨decode_encode .latch, fun s hphase hisr => ⟨fun hdeact => ?_, fun hdeact hact => ?_,
    fun hdeact hact => ?_⟩⟩
  · rw [exec_latch hphase hisr, latchedMode_of_deactivate hdeact]
  · rw [exec_latch hphase hisr, latchedMode_of_activate hdeact hact]
  · rw [exec_latch hphase hisr, latchedMode_of_neither hdeact hact]

end Sys2Proof.Proofs
end

section
/-! PROOFS. The table compiler family (42_table_compiler.md): the response function bit by bit and its laws,
one CENTRY, a whole COMPILE, and the active table that no operation writes. -/

namespace Sys2Proof.Machine

/-! ### The response function bit by bit (42_table_compiler.md R150, R151) -/

section
variable {m m' : ScanMatrix} {S : Byte}

theorem mem_sel {r : Nat} : r ∈ sel S ↔ r < 8 ∧ S.getLsbD r = false := by
  simp [sel]

/-- ORing rows onto a value sets the bits of those rows, and no other. -/
theorem getLsbD_foldl_or_row (m : ScanMatrix) (rs : List Nat) (v : Byte) (b : Nat) :
    (rs.foldl (fun v r => v ||| ScanMatrix.row m r) v).getLsbD b = true ↔
      v.getLsbD b = true ∨ ∃ r ∈ rs, (ScanMatrix.row m r).getLsbD b = true := by
  induction rs generalizing v with
  | nil => simp
  | cons r rs ih => simp [ih, or_assoc]

theorem getLsbD_acc {b : Nat} : (acc m S).getLsbD b = true ↔
    ∃ r, r < 8 ∧ S.getLsbD r = false ∧ (ScanMatrix.row m r).getLsbD b = true := by
  simp [acc, getLsbD_foldl_or_row, mem_sel, and_assoc]

/-- Within the 8 bits, an entry is the complement of what the multiplexer gives: a pressed key reads as 0. -/
theorem getLsbD_entry {b : Nat} (hb : b < 8) : (entry m S).getLsbD b = false ↔
    ∃ r, r < 8 ∧ S.getLsbD r = false ∧ (ScanMatrix.row m r).getLsbD b = true := by
  rw [← getLsbD_acc]
  simp [entry, hb]

/-! ### The laws of the response function (42_table_compiler.md R156) -/

/-- The multiplexer reads the selected rows alone. -/
theorem acc_congr (h : ∀ r, r < 8 → S.getLsbD r = false → ScanMatrix.row m r = ScanMatrix.row m' r) :
    acc m S = acc m' S := by
  refine List.foldl_ext _ _ _ fun v r hr => ?_
  obtain ⟨hlt, hsel⟩ := mem_sel.1 hr
  rw [h r hlt hsel]

/-- A row is selected by S & S' if S or S' selects it. -/
theorem acc_and (m : ScanMatrix) (S S' : Byte) : acc m (S &&& S') = acc m S ||| acc m S' := by
  refine BitVec.eq_of_getLsbD_eq fun b _ => ?_
  rw [Bool.eq_iff_iff, BitVec.getLsbD_or, Bool.or_eq_true, getLsbD_acc, getLsbD_acc, getLsbD_acc]
  simp only [BitVec.getLsbD_and, Bool.and_eq_false_iff, or_and_right, and_or_left, exists_or]

theorem sel_oneRow : ∀ r < 8, sel (~~~(1#8 <<< r)) = [r] := by decide

theorem entry_noRow (m : ScanMatrix) : entry m 0xFF#8 = 0xFF#8 := by
  have hsel : sel 0xFF#8 = [] := by decide
  rw [entry, acc, hsel, List.foldl_nil]
  rfl

theorem entry_oneRow (m : ScanMatrix) {r : Nat} (hr : r < 8) :
    entry m (~~~(1#8 <<< r)) = ~~~(ScanMatrix.row m r) := by
  rw [entry, acc, sel_oneRow r hr]
  exact congrArg _ BitVec.zero_or

theorem entry_and (m : ScanMatrix) (S S' : Byte) :
    entry m (S &&& S') = entry m S &&& entry m S' := by
  rw [entry, acc_and, BitVec.not_or, entry, entry]

theorem entry_allRows (m : ScanMatrix) : entry m 0x00#8 =
    ~~~(m[0] ||| m[1] ||| m[2] ||| m[3] ||| m[4] ||| m[5] ||| m[6] ||| m[7]) := by
  have hsel : sel 0x00#8 = [0, 1, 2, 3, 4, 5, 6, 7] := by decide
  simp [entry, acc, hsel, ScanMatrix.row_lt]

theorem entry_congr
    (h : ∀ r, r < 8 → S.getLsbD r = false → ScanMatrix.row m r = ScanMatrix.row m' r) :
    entry m S = entry m' S :=
  congrArg _ (acc_congr h)

/-- Selected rows that are all 0 leave the entry idle. -/
theorem entry_of_rows_zero (h : ∀ r, r < 8 → S.getLsbD r = false → ScanMatrix.row m r = 0x00#8) :
    entry m S = 0xFF#8 := by
  have hskip : ∀ v, ∀ r ∈ sel S, v ||| ScanMatrix.row m r = v := by
    intro v r hr
    obtain ⟨hlt, hsel⟩ := mem_sel.1 hr
    rw [h r hlt hsel]
    exact BitVec.or_zero
  rw [entry, acc, List.foldl_ext _ _ _ hskip, List.foldl_fixed]
  rfl

end

/-! ### CENTRY (42_table_compiler.md R152) -/

theorem encode_centry (S : Byte) : encode (.centry S) = 0x4000#16 ||| S.setWidth 16 := rfl

theorem State.compileAdvance_last (s : State) :
    s.compileAdvance 0xFF#8 = { s with phase := .publish } := rfl

theorem State.compileAdvance_of_ne_last (s : State) {S : Byte} (h : S ≠ 0xFF#8) :
    s.compileAdvance S = { s with cidx := S + 1 } := by
  simp [State.compileAdvance, h]

end Sys2Proof.Machine

namespace Sys2Proof.Proofs

open Sys2Proof.Machine

/-- Settles O25: a lane of the entry is the complement of the OR of that lane of the selected rows. -/
theorem entryLanesAreIndependent : Obligations.EntryLanesAreIndependent :=
  fun _ _ _ hb => getLsbD_entry hb

/-- Settles O26: (a) to (f) are the lemmas about `entry`; (g): the bit that a selected row sets is one of the
two positions. -/
theorem responseFunctionLaws : Obligations.ResponseFunctionLaws := by
  refine ⟨entry_noRow, fun m _ hr => entry_oneRow m hr, entry_and, entry_allRows,
    fun _ _ hzero => entry_of_rows_zero fun r hr _ => hzero r hr, fun _ _ _ => entry_congr, ?_⟩
  intro m act deact S b hpos hb hb8 hzero
  obtain ⟨r, -, hsel, hbit⟩ := (getLsbD_entry hb8).1 hzero
  exact ⟨⟨r, b⟩, hpos ⟨r, b⟩ hb hbit, rfl, hsel, hbit⟩

/-- Settles O27: the state after CENTRY, its one store read back, and where the sequencer goes. -/
theorem centryWritesOneEntry : Obligations.CentryWritesOneEntry := by
  refine ⟨fun S => encode_centry S ▸ decode_encode (.centry S), fun s S hphase hisr hS => ?_⟩
  refine ⟨_, exec_centry_next.2 ⟨⟨hphase, hisr, hS⟩, rfl⟩, ?_, fun a ha => ?_, fun hlast => ?_,
    fun hlast => ?_⟩
  · rw [State.entryAt_centry, if_pos ⟨rfl, rfl⟩]
  · exact (Memory.read_write s.tbl _ a _).trans (if_neg ha)
  · rw [hlast, State.compileAdvance_last]
    rfl
  · rw [State.compileAdvance_of_ne_last _ hlast]
    rfl

/-- Settles O28: `perform_pseudoCompile`, and the two slots read from the compiled table memory. -/
theorem compileFillsTheInactiveTable : Obligations.CompileFillsTheInactiveTable := by
  intro s hphase hisr hcidx
  exact ⟨_, perform_pseudoCompile hphase hisr hcidx, s.read_compiledTable_inactive,
    s.read_compiledTable_active, rfl⟩

/-- Settles O31: the one store there is goes to the other slot, and ACT is PUBLISH's own register. -/
theorem activeTableIsNeverWritten : Obligations.ActiveTableIsNeverWritten := by
  intro i s t h
  refine ⟨fun S => ?_, fun hact => ?_⟩
  · refine onlyCentryStoresToTableMemory i s t h _ fun S' _ haddr => ?_
    exact one_sub_ne s.act (tableAddr_inj.1 haddr).1.symm
  · obtain ⟨-, howner, -⟩ := onlyTheOwnersWriteEachRegister i s t h
    obtain rfl : i = .publish := howner hact
    obtain ⟨-, rfl⟩ := exec_publish_next.1 h
    exact ⟨rfl, rfl⟩

end Sys2Proof.Proofs
end

section
/-! PROOFS. The publication family (43_publication.md): PUBLISH, the tables at reset, and the double-buffer
invariant through every operation. -/

namespace Sys2Proof.Machine

open Sys2Proof.Safety

variable {i : Instr} {s t : State} {S : Byte}

/-! ### PUBLISH (43_publication.md R170) -/

theorem exec_publish (hphase : s.phase = .publish) (hisr : s.inIsr = false) :
    exec .publish s = .next { s with act := 1 - s.act, phase := .led } :=
  exec_publish_next.2 ⟨⟨hphase, hisr⟩, rfl⟩

/-! ### Reset (43_publication.md R176, 70_reset_and_hazards.md R260) -/

theorem entry_clear (S : Byte) : entry ScanMatrix.clear S = 0xFF#8 :=
  entry_of_rows_zero fun r _ _ => ScanMatrix.row_clear r

/-- Table memory that lists nothing is compile(all-clear), in both slots. -/
theorem holdsTable_clear_of_tbl_nil (htbl : s.tbl = []) (slot : Slot) :
    HoldsTable s slot ScanMatrix.clear := by
  intro S
  rw [entry_clear, State.entryAt, State.memRead, htbl]
  rfl

/-- A snapshot of N_KEYS times one code of the configuration has the block's shape. -/
theorem wf_replicate_code (cfg : Config) (mods : Byte) (n : Nat) :
    Snapshot.wf cfg ⟨mods, List.replicate cfg.nKeys (cfg.code n)⟩ = true := by
  have hcode : cfg.code n < 2 ^ cfg.codeWidth := Config.code_lt cfg n
  simp [Snapshot.wf, hcode]

/-! ### Where the table clauses of the invariant speak: P_COMPILE and P_PUBLISH -/

/-- A step that leaves the sequencer at P_COMPILE or P_PUBLISH is the host's or the responder's, or LATCH, or
a CENTRY (43_publication.md R172). -/
theorem operation_of_tablePhase (h : exec i s = .next t)
    (hphase : t.phase = .compile ∨ t.phase = .publish) :
    phaseOf i = none ∨ i = .latch ∨ ∃ S, i = .centry S := by
  cases i
  case latch => exact .inr (.inl rfl)
  case centry S => exact .inr (.inr ⟨S, rfl⟩)
  case edge => exact .inl rfl
  case isrRun S => exact .inl rfl
  case isrClr => exact .inl rfl
  case hostsel S => exact .inl rfl
  case hostmon m => exact .inl rfl
  all_goals
    obtain ⟨-, rfl⟩ := idleStep_eq_next.1 h
    simp [ite_eq_iff] at hphase

/-- The host and the responder leave alone all that the double-buffer invariant speaks of. -/
theorem exec_tableFrame_of_phaseOf_none (h : exec i s = .next t) (hi : phaseOf i = none) :
    t.tbl = s.tbl ∧ t.act = s.act ∧ t.phase = s.phase ∧ t.cidx = s.cidx ∧ t.matrix = s.matrix := by
  obtain ⟨htbl, hact, -, -, -, -, -, -, -, -, hphase, hcidx, -, hmatrix, -⟩ :=
    Proofs.onlyTheOwnersWriteEachRegister i s t h
  refine ⟨of_not_not fun hne => ?_, of_not_not fun hne => ?_, of_not_not fun hne => ?_,
    of_not_not fun hne => ?_, of_not_not fun hne => ?_⟩
  · obtain ⟨S, rfl⟩ := htbl hne
    cases hi
  · obtain rfl := hact hne
    cases hi
  · cases hi.symm.trans (hphase hne)
  · obtain rfl | ⟨S, rfl⟩ := hcidx hne <;> cases hi
  · obtain rfl := hmatrix hne
    cases hi

end Sys2Proof.Machine

namespace Sys2Proof.Safety

open Sys2Proof.Machine

variable {i : Instr} {s t : State} {S : Byte}

/-- At P_INIT with the reset content the active table is compile(all-clear), and no compile is under way. -/
theorem DoubleBuffer.of_reset (htbl : s.tbl = []) (hphase : s.phase = .init) : DoubleBuffer s where
  active := ⟨_, holdsTable_clear_of_tbl_nil htbl _⟩
  written hcompile := by cases hphase.symm.trans hcompile
  complete hpublish := by cases hphase.symm.trans hpublish

/-- The active table stays a complete compile: no operation writes it, and PUBLISH makes active the table that
the last CENTRY completed (43_publication.md R172). -/
theorem DoubleBuffer.exists_active (hs : DoubleBuffer s) (h : exec i s = .next t) :
    ∃ m, HoldsTable t t.act m := by
  obtain ⟨hentries, hpublish⟩ := Proofs.activeTableIsNeverWritten i s t h
  by_cases hact : t.act = s.act
  · obtain ⟨m, hm⟩ := hs.active
    exact ⟨m, fun S => hact ▸ (hentries S).trans (hm S)⟩
  · obtain ⟨rfl, -⟩ := hpublish hact
    obtain ⟨⟨hphase, -⟩, rfl⟩ := exec_publish_next.1 h
    exact ⟨s.matrix, hs.complete hphase⟩

/-- After CENTRY S the other table's entries up to S are the matrix's. -/
theorem DoubleBuffer.entryAt_centry_of_le (hs : DoubleBuffer s) (hphase : s.phase = .compile)
    (hS : S = s.cidx) {S' : Byte} (hle : S' ≤ S) :
    ((s.memWrite (tableAddr s.inactive S) (entry s.matrix S)).compileAdvance S).entryAt (1 - s.act) S'
      = entry s.matrix S' := by
  rw [State.entryAt_centry]
  by_cases heq : S' = S
  · rw [if_pos ⟨rfl, heq⟩, heq]
  · rw [if_neg fun hand => heq hand.2]
    exact hs.written hphase S' (hS ▸ BitVec.lt_of_le_ne hle heq)

/-- A CENTRY before the last extends what is written by its entry, and the last one completes the table. -/
theorem DoubleBuffer.of_centry (hs : DoubleBuffer s) (h : exec (.centry S) s = .next t) :
    DoubleBuffer t := by
  have hactive := hs.exists_active h
  obtain ⟨⟨hphase, -, hS⟩, rfl⟩ := exec_centry_next.1 h
  by_cases hlast : S = 0xFF#8
  · subst hlast
    refine ⟨hactive, fun hcompile => (by cases hcompile), fun _ S' => ?_⟩
    exact hs.entryAt_centry_of_le hphase hS (by bv_omega)
  · refine ⟨hactive, fun _ S' hlt => ?_, fun hpublish => ?_⟩
    · rw [State.cidx_compileAdvance, if_neg hlast] at hlt
      exact hs.entryAt_centry_of_le hphase hS (by bv_omega)
    · rw [State.phase_compileAdvance, if_neg hlast, State.phase_memWrite, hphase] at hpublish
      cases hpublish

/-- LATCH starts a compile of which nothing is written. -/
theorem DoubleBuffer.of_latch (hs : DoubleBuffer s) (h : exec .latch s = .next t) : DoubleBuffer t := by
  have hactive := hs.exists_active h
  obtain ⟨-, rfl⟩ := exec_latch_next.1 h
  exact ⟨hactive, fun _ S' hlt => absurd hlt BitVec.not_lt_zero, fun hpublish => by cases hpublish⟩

/-- The invariant carries over to a state that agrees in all it speaks of. -/
theorem DoubleBuffer.congr (hs : DoubleBuffer s) (htbl : t.tbl = s.tbl) (hact : t.act = s.act)
    (hphase : t.phase = s.phase) (hcidx : t.cidx = s.cidx) (hmatrix : t.matrix = s.matrix) :
    DoubleBuffer t := by
  obtain ⟨hactive, hwritten, hcomplete⟩ := hs
  constructor <;>
    simpa only [HoldsTable, State.entryAt, State.memRead, htbl, hact, hphase, hcidx, hmatrix]

/-- Every operation keeps the double-buffer invariant: only the host, the responder, LATCH and CENTRY leave the
sequencer where the other table matters (43_publication.md R176). -/
theorem DoubleBuffer.of_exec (hs : DoubleBuffer s) (h : exec i s = .next t) : DoubleBuffer t := by
  by_cases hphase : t.phase = .compile ∨ t.phase = .publish
  · obtain hnone | rfl | ⟨S, rfl⟩ := operation_of_tablePhase h hphase
    · obtain ⟨htbl, hact, hsame, hcidx, hmatrix⟩ := exec_tableFrame_of_phaseOf_none h hnone
      exact hs.congr htbl hact hsame hcidx hmatrix
    · exact hs.of_latch h
    · exact hs.of_centry h
  · obtain ⟨hcompile, hpublish⟩ := not_or.1 hphase
    exact ⟨hs.exists_active h, fun hp => absurd hp hcompile, fun hp => absurd hp hpublish⟩

end Sys2Proof.Safety

namespace Sys2Proof.Proofs

open Sys2Proof.Machine Sys2Proof.Safety

/-- Settles O32: `DoubleBuffer.of_exec`; the schedule and the draw count are none of the invariant's. -/
theorem everyStepKeepsTheDoubleBuffer : Obligations.EveryStepKeepsTheDoubleBuffer :=
  kept_of_exec (fun _ _ _ hs => hs.congr rfl rfl rfl rfl rfl) fun _ _ _ hs h => hs.of_exec h

/-- Settles O13: both tables are compile(all-clear), so LED, which is 0, agrees with them; no compile, service
or handshake is under way. -/
theorem invariantsHoldAfterReset : Obligations.InvariantsHoldAfterReset := by
  intro cfg out selIn monIn s
  have htable : ∀ slot, HoldsTable s slot ScanMatrix.clear := holdsTable_clear_of_tbl_nil rfl
  have hinterrupt : InterruptOk s := ⟨by simp [s, State.resetDraw, maskedPhases], fun hisr => by cases hisr⟩
  have hmagic : MagicOk s := ⟨by simp [s, State.resetDraw], fun hfall => by cases hfall⟩
  have hidle : s.entryAt s.act 0x00#8 = 0xFF#8 := (htable _ _).trans (entry_clear _)
  have hled : LedOk s := fun _ => iff_of_false Bool.false_ne_true (not_not_intro hidle)
  have hmatrix : ∀ p, ScanMatrix.bit s.matrix p = false := ScanMatrix.bit_clear
  refine ⟨htable 0, htable 1, .of_reset rfl rfl, hinterrupt, hmagic, hled, Memory.wf_nil,
    wf_replicate_code cfg 0 cfg.emptyCode, fun hwf => ?_⟩
  exact ⟨⟨hwf, fun p _ hbit => by simp [hmatrix] at hbit⟩, ⟨hwf, Phase.noConfusion⟩⟩

/-- Settles O29: the word is the encoder's, and the other slot is another one. -/
theorem publishSwitchesTheActiveTable : Obligations.PublishSwitchesTheActiveTable :=
  ⟨decode_encode .publish, fun s hphase hisr => ⟨exec_publish hphase hisr, one_sub_ne s.act⟩⟩

/-- Settles O30: the invariant says what the other slot holds at P_PUBLISH, and PUBLISH writes no table. -/
theorem publishedTableIsComplete : Obligations.PublishedTableIsComplete := by
  intro s hs hphase hisr
  refine ⟨_, exec_publish hphase hisr, hs.complete hphase, fun S => ?_⟩
  show s.entryAt (1 - (1 - s.act)) S = s.entryAt s.act S
  rw [one_sub_one_sub]

end Sys2Proof.Proofs
end

section
/-! PROOFS. The strobe responder family (44_strobe_responder.md): one service from the strobe to its return,
what a service in progress lets happen, and the active table at every point of every run. -/

namespace Sys2Proof.Machine

variable {i : Instr} {s t : State} {S : Byte}

/-! ### The words (30_encoding.md R77, R78) -/

theorem encode_isrRun (S : Byte) : encode (.isrRun S) = 0xA000#16 ||| S.setWidth 16 := rfl

theorem encode_hostsel (S : Byte) : encode (.hostsel S) = 0xC000#16 ||| S.setWidth 16 := rfl

/-! ### Entry to and return from a service (44_strobe_responder.md R184, R185) -/

theorem exec_isrRun (hie : s.ie = true) (hpend : s.pend = true) (hisr : s.inIsr = false)
    (hS : S = s.selIn) : exec (.isrRun S) s = .next s.enterService :=
  exec_isrRun_next.2 ⟨⟨⟨hie, hpend, hisr⟩, hS⟩, rfl⟩

theorem exec_isrClr (hisr : s.inIsr = true) : exec .isrClr s = .next s.leaveService :=
  exec_isrClr_next.2 ⟨hisr, rfl⟩

/-- While the responder may not start a service, no ISR_RUN has a step (60_exceptions.md R237). -/
theorem exec_isrRun_ne_next (h : s.canServe = false) (S : Byte) (t : State) :
    exec (.isrRun S) s ≠ .next t := by
  intro hrun
  obtain ⟨⟨hserve, -⟩, -⟩ := exec_isrRun_next.1 hrun
  rw [(State.canServe_iff s).2 hserve] at h
  cases h

theorem State.canServe_of_masked (h : s.ie = false) : s.canServe = false := by
  simp [State.canServe, h]

theorem State.canServe_of_no_strobe (h : s.pend = false) : s.canServe = false := by
  simp [State.canServe, h]

/-- A service from entry to return: OUT and PEND are written, and INISR is back at 0
(44_strobe_responder.md R190). -/
theorem State.leaveService_enterService (hisr : s.inIsr = false) :
    s.enterService.leaveService = { s with out := s.entryAt s.act s.selIn, pend := false } := by
  simp only [State.enterService, State.leaveService, ← hisr]

theorem perform_pseudoService (hie : s.ie = true) (hpend : s.pend = true) (hisr : s.inIsr = false) :
    perform (pseudoService s.selIn) s
      = .next { s with out := s.entryAt s.act s.selIn, pend := false } :=
  perform_step (exec_isrRun hie hpend hisr rfl) <| perform_step (exec_isrClr rfl) <|
    congrArg _ (State.leaveService_enterService hisr)

/-- PEND is one bit: strobes before a service coalesce (44_strobe_responder.md R182). -/
theorem perform_replicate_edge (n : Nat) (s : State) :
    perform (List.replicate (n + 1) .edge) s = .next { s with pend := true } :=
  perform_step rfl (perform_replicate_of_fixed rfl n)

/-! ### What a service lets happen (44_strobe_responder.md R186, R190) -/

/-- What the idle sequencer may do depends on PHASE, INISR and CIDX alone (30_encoding.md R79). -/
theorem enabled_congr_of_idle (hi : phaseOf i ≠ none) (hphase : t.phase = s.phase)
    (hisr : t.inIsr = s.inIsr) (hcidx : t.cidx = s.cidx) : enabled i t = enabled i s := by
  cases i
  case edge => exact absurd rfl hi
  case isrRun S => exact absurd rfl hi
  case isrClr => exact absurd rfl hi
  case hostsel S => exact absurd rfl hi
  case hostmon m => exact absurd rfl hi
  all_goals simp only [enabled, State.idleAt, hphase, hisr, hcidx]

theorem enabled_inService_iff (hisr : s.inIsr = true) : enabled i s = true ↔
    i = .isrClr ∨ i = .edge ∨ (∃ S, i = .hostsel S) ∨ ∃ m, i = .hostmon m := by
  cases i
  case edge => simp [enabled]
  case isrRun S => simp [enabled, State.canServe, hisr]
  case isrClr => simp [enabled, hisr]
  case hostsel S => simp [enabled]
  case hostmon m => simp [enabled]
  all_goals simp [enabled, State.idleAt, hisr]

end Sys2Proof.Machine

namespace Sys2Proof.Safety

open Sys2Proof.Machine

variable {cfg : Config} {i : Instr} {s t : State} {m : ScanMatrix}

/-- Only PUBLISH gives the block another active table (42_table_compiler.md R153). -/
theorem HoldsTable.of_exec (hs : HoldsTable s s.act m) (hi : i ≠ .publish) (h : exec i s = .next t) :
    HoldsTable t t.act m := by
  obtain ⟨hentries, hpublish⟩ := Proofs.activeTableIsNeverWritten i s t h
  have hact : t.act = s.act := of_not_not fun hne => hi (hpublish hne).1
  exact fun S => hact ▸ (hentries S).trans (hs S)

/-- The double-buffer invariant holds at reset and every step keeps it, so it holds in every run
(10_state.md R40). -/
theorem Reaches.doubleBuffer (h : Reaches cfg s m) : DoubleBuffer s := by
  induction h with
  | reset out selIn monIn => exact .of_reset rfl rfl
  | platformReset out selIn monIn _ _ => exact .of_reset rfl rfl
  | input usb sched draws _ ih => exact ih.congr rfl rfl rfl rfl rfl
  | publish _ hstep ih => exact ih.of_exec hstep
  | other i _ _ hstep ih => exact ih.of_exec hstep

/-- The active table is compile of the last published matrix: at a PUBLISH the invariant says that the
other table is complete (20_memory.md R63). -/
theorem Reaches.holdsTable_active (h : Reaches cfg s m) : HoldsTable s s.act m := by
  induction h with
  | reset out selIn monIn => exact holdsTable_clear_of_tbl_nil rfl _
  | platformReset out selIn monIn _ _ => exact holdsTable_clear_of_tbl_nil rfl _
  | input usb sched draws _ ih => exact ih
  | publish hreach hstep _ =>
    obtain ⟨⟨hphase, -⟩, rfl⟩ := exec_publish_next.1 hstep
    exact hreach.doubleBuffer.complete hphase
  | other i hi _ hstep ih => exact ih.of_exec hi hstep

end Sys2Proof.Safety

namespace Sys2Proof.Proofs

open Sys2Proof.Machine Sys2Proof.Safety

/-- Settles O33: `Reaches.holdsTable_active`; a service reads the active table at SEL_IN, which is S. -/
theorem everyRunAnswersFromTheLastPublishedMatrix :
    Obligations.EveryRunAnswersFromTheLastPublishedMatrix := by
  intro cfg s m hreach
  have htable : HoldsTable s s.act m := hreach.holdsTable_active
  refine ⟨htable, fun S t hrun => ?_⟩
  obtain ⟨⟨-, rfl⟩, rfl⟩ := exec_isrRun_next.1 hrun
  exact htable s.selIn

/-- Settles O36: `perform_pseudoService`; PHASE, INISR and CIDX are as before. -/
theorem serviceLeavesTheIdleSequencerAlone : Obligations.ServiceLeavesTheIdleSequencerAlone := by
  intro s S hie hpend hisr hS
  refine ⟨?_, fun j hj => enabled_congr_of_idle hj rfl rfl rfl⟩
  subst hS
  exact perform_pseudoService hie hpend hisr

/-- Settles O37: an operation completes exactly where it is enabled, and the four that a service leaves
enabled write the responder's and the host's registers alone. -/
theorem serviceRunsToCompletion : Obligations.ServiceRunsToCompletion := by
  intro i s hisr
  have hcompletes := (exec_completes_iff i s).trans (enabled_inService_iff hisr)
  refine ⟨hcompletes, fun t h => ?_⟩
  obtain rfl | rfl | ⟨S, rfl⟩ | ⟨m, rfl⟩ := hcompletes.1 ⟨t, h⟩
  · obtain ⟨-, rfl⟩ := exec_isrClr_next.1 h
    rfl
  · obtain rfl := exec_edge_next.1 h
    rfl
  · obtain rfl := exec_hostsel_next.1 h
    rfl
  · obtain rfl := exec_hostmon_next.1 h
    rfl

/-- Settles O39: the strobes leave the one PEND, which their service clears; the mask is lifted by MAG_EI. -/
theorem strobesCoalesceAndWait : Obligations.StrobesCoalesceAndWait := by
  refine ⟨perform_replicate_edge, fun n s hie hisr => ?_, fun s S hie =>
    exec_isrRun_ne_next (State.canServe_of_masked hie) S, fun s hphase hisr _ => ?_⟩
  · exact ⟨_, perform_seq (perform_replicate_edge n s) (perform_pseudoService hie rfl hisr),
      exec_isrRun_ne_next (State.canServe_of_no_strobe rfl)⟩
  · have hmagEi : exec .magEi { s with pend := true }
        = .next { s with pend := true, ie := true, phase := .poll } :=
      exec_magEi_next.2 ⟨⟨hphase, hisr⟩, rfl⟩
    exact perform_step rfl (perform_step hmagEi (perform_step (exec_isrRun rfl rfl hisr rfl) rfl))

/-- Settles O34: the word is the encoder's, and interrupt entry reads the active table at SEL_IN, which is S. -/
theorem serviceAnswersFromTheActiveTable : Obligations.ServiceAnswersFromTheActiveTable := by
  refine ⟨fun S => encode_isrRun S ▸ decode_encode (.isrRun S), fun s S hie hpend hisr hS => ?_⟩
  subst hS
  exact exec_isrRun hie hpend hisr rfl

/-- Settles O35: the word is the encoder's, and INISR enables the return. -/
theorem serviceReturnClearsTheStrobe : Obligations.ServiceReturnClearsTheStrobe := by
  refine ⟨decode_encode .isrClr, fun s hisr => exec_isrClr hisr, fun s hisr t hclr => ?_⟩
  obtain ⟨hin, -⟩ := exec_isrClr_next.1 hclr
  exact Bool.false_ne_true (hisr.symm.trans hin)

/-- Settles O38: the words are the encoder's, and the host's steps have no condition. -/
theorem hostStepsWriteTheirInputs : Obligations.HostStepsWriteTheirInputs :=
  ⟨decode_encode .edge, fun S => encode_hostsel S ▸ decode_encode (.hostsel S),
    decode_encode (.hostmon false), decode_encode (.hostmon true), fun _ _ _ =>
    ⟨exec_edge_next.2 rfl, exec_hostsel_next.2 rfl, exec_hostmon_next.2 rfl⟩⟩

/-- Settles O40: the return clears PEND whoever set it, and without PEND there is no ISR_RUN. -/
theorem strobeDuringAServiceIsAbsorbed : Obligations.StrobeDuringAServiceIsAbsorbed := by
  intro s S hie hpend hisr hS
  have hreturn : exec .isrClr { s.enterService with pend := true }
      = .next (State.leaveService { s.enterService with pend := true }) := exec_isrClr rfl
  refine ⟨_, perform_step (exec_isrRun hie hpend hisr hS) (perform_step rfl
    (perform_step hreturn rfl)), rfl, ?_⟩
  exact exec_isrRun_ne_next (State.canServe_of_no_strobe rfl)

end Sys2Proof.Proofs
end

section
/-! PROOFS. The auxiliary signaling family (45_aux_signaling.md): the LED, the reset line and the magic
handshake, one operation at a time and as a whole, and the invariants of IE, MAG and LED. -/

namespace Sys2Proof.Machine

open Sys2Proof.Safety

variable {i : Instr} {s t : State} {m : ScanMatrix}

/-! ### LEDUPD and RSTUPD (45_aux_signaling.md R201, R203) -/

theorem exec_ledupd (hphase : s.phase = .led) (hisr : s.inIsr = false) :
    exec .ledupd s = .next { s with led := ledOf (s.entryAt s.act 0x00#8), phase := .rst } :=
  exec_ledupd_next.2 ⟨⟨hphase, hisr⟩, rfl⟩

theorem exec_rstupd (hphase : s.phase = .rst) (hisr : s.inIsr = false) :
    exec .rstupd s
      = .next { s with rst := s.rstReq, phase := if s.magReq then .magDi else .poll } :=
  exec_rstupd_next.2 ⟨⟨hphase, hisr⟩, rfl⟩

theorem getLsbD_idleByte : ∀ b < 8, (0xFF#8).getLsbD b = true := by decide

/-- The entry that selects every row shows whether any key is pressed (45_aux_signaling.md R202). -/
theorem entry_allRows_ne_idle_iff :
    entry m 0x00#8 ≠ 0xFF#8 ↔ ∃ p : Coord, p.r < 8 ∧ p.b < 8 ∧ ScanMatrix.bit m p = true := by
  constructor
  · intro hne
    by_contra hnone
    have hclear : m = ScanMatrix.clear := by
      refine ScanMatrix.ext_bit fun p hr hb => ?_
      rw [ScanMatrix.bit_clear, ← Bool.not_eq_true]
      exact fun hbit => hnone ⟨p, hr, hb, hbit⟩
    exact hne (hclear ▸ entry_clear 0x00#8)
  · rintro ⟨⟨r, b⟩, hr, hb, hbit⟩ heq
    have hlane : (entry m 0x00#8).getLsbD b = false :=
      (getLsbD_entry hb).2 ⟨r, hr, BitVec.getLsbD_zero, hbit⟩
    rw [heq, getLsbD_idleByte b hb] at hlane
    cases hlane

/-! ### The words of the magic handshake (30_encoding.md R83) -/

/-- With MON_IN held, the wait for a falling edge keeps the first sample, and further ones change nothing
(45_aux_signaling.md R213). -/
theorem perform_magWfall_wait (hphase : s.phase = .magFall) (hisr : s.inIsr = false)
    (hedge : ¬(s.monPrev = some true ∧ s.monIn = false)) (n : Nat) :
    perform (List.replicate (n + 1) .magWfall) s = .next { s with monPrev := some s.monIn } :=
  have hfixed := exec_magWfall_wait (s := { s with monPrev := some s.monIn }) hphase hisr (by simp)
  perform_step (exec_magWfall_wait hphase hisr hedge) (perform_replicate_of_fixed hfixed n)

/-- MAGIC with the host's steps left out is MAGIC: the sample that sees the edge is one more of its wait. -/
theorem filter_idle_magicWithHost (lows highs : Nat) :
    (magicWithHost lows highs).filter (fun i => (phaseOf i).isSome)
      = pseudoMagic (lows + 1) highs := by
  simp [magicWithHost, pseudoMagic, phaseOf, List.replicate_succ' (n := lows + 1),
    List.replicate_succ' (n := highs)]

/-! ### Where the sequencer goes (10_state.md R30, R31) -/

/-- The phases other than its own to which an operation can move the sequencer. -/
def nextPhases : Instr → List Phase
  | .init => [.poll]
  | .pollData => [.build]
  | .pollNodata => [.rst]
  | .build => [.latch]
  | .latch => [.compile]
  | .centry _ => [.publish]
  | .publish => [.led]
  | .ledupd => [.rst]
  | .rstupd => [.magDi, .poll]
  | .magDi => [.magRise]
  | .magWrise => [.magFall]
  | .magWfall => [.magAssert]
  | .magAssert => [.magHold]
  | .magHold => [.magRel]
  | .magRel => [.magEi]
  | .magEi => [.poll]
  | .edge => []
  | .isrRun _ => []
  | .isrClr => []
  | .hostsel _ => []
  | .hostmon _ => []

/-- A step keeps PHASE, or is the idle operation of PHASE and moves to one of its next phases. -/
theorem exec_phase_cases (h : exec i s = .next t) :
    t.phase = s.phase ∨ phaseOf i = some s.phase ∧ t.phase ∈ nextPhases i := by
  refine or_iff_not_imp_left.2 fun hne => ?_
  obtain ⟨-, -, -, -, -, -, -, -, -, -, howner, -⟩ := Proofs.onlyTheOwnersWriteEachRegister i s t h
  refine ⟨howner hne, ?_⟩
  -- CENTRY and the two waits can also stay where they are, which `hne` excludes.
  cases i
  case edge | isrRun | isrClr | hostsel | hostmon => cases howner hne
  case centry S =>
    obtain ⟨-, rfl⟩ := exec_centry_next.1 h
    simp_all [nextPhases]
  all_goals
    obtain ⟨⟨hphase, -⟩, rfl⟩ := idleStep_eq_next.1 h
    simp_all [nextPhases]

/-- A set of phases whose border the operation does not cross holds PHASE after it exactly if before. -/
theorem exec_phase_mem_iff {ps : List Phase} (h : exec i s = .next t)
    (hborder : ∀ p, phaseOf i = some p → ∀ q ∈ nextPhases i, q ∈ ps ↔ p ∈ ps) :
    t.phase ∈ ps ↔ s.phase ∈ ps := by
  obtain hsame | ⟨hp, hq⟩ := exec_phase_cases h
  · rw [hsame]
  · exact hborder _ hp _ hq

/-- But at a PUBLISH, the active table is as it was (42_table_compiler.md R153). -/
theorem exec_activeEntry (hi : i ≠ .publish) (h : exec i s = .next t) (S : Byte) :
    t.entryAt t.act S = s.entryAt s.act S := by
  obtain ⟨hentries, hpublish⟩ := Proofs.activeTableIsNeverWritten i s t h
  have hact : t.act = s.act := of_not_not fun hne => hi (hpublish hne).1
  exact hact ▸ hentries S

/-! ### The idle operations that write IE and MAG (45_aux_signaling.md R213, R214) -/

/-- But for INIT, MAG_DI and MAG_EI, an operation keeps IE and the sequencer on its side of the mask. -/
theorem exec_mask (h : exec i s = .next t) (hinit : i ≠ .init) (hdi : i ≠ .magDi) (hei : i ≠ .magEi) :
    t.ie = s.ie ∧ (t.phase ∈ maskedPhases ↔ s.phase ∈ maskedPhases) := by
  obtain ⟨-, -, -, -, howner, -⟩ := Proofs.onlyTheOwnersWriteEachRegister i s t h
  refine ⟨not_imp_comm.1 howner (by simp [hinit, hdi, hei]), exec_phase_mem_iff h ?_⟩
  cases i
  case init => exact absurd rfl hinit
  case magDi => exact absurd rfl hdi
  case magEi => exact absurd rfl hei
  all_goals simp [phaseOf, nextPhases, maskedPhases]

/-- But for MAG_ASSERT and MAG_REL, an operation keeps MAG and the sequencer on its side of the pulse. -/
theorem exec_pulse (h : exec i s = .next t) (hassert : i ≠ .magAssert) (hrel : i ≠ .magRel) :
    t.mag = s.mag ∧ (t.phase ∈ [.magHold, .magRel] ↔ s.phase ∈ [.magHold, .magRel]) := by
  obtain ⟨-, -, -, -, -, -, -, -, -, howner, -⟩ := Proofs.onlyTheOwnersWriteEachRegister i s t h
  refine ⟨not_imp_comm.1 howner (by simp [hassert, hrel]), exec_phase_mem_iff h ?_⟩
  cases i
  case magAssert => exact absurd rfl hassert
  case magRel => exact absurd rfl hrel
  all_goals simp [phaseOf, nextPhases]

/-! ### The wait for a falling edge (45_aux_signaling.md R207) -/

/-- P_MAG_ASSERT is entered from P_MAG_FALL alone, on a falling edge of MON_IN. -/
theorem exec_enters_magAssert (h : exec i s = .next t) (hs : s.phase ≠ .magAssert)
    (ht : t.phase = .magAssert) : i = .magWfall ∧ s.monPrev = some true ∧ s.monIn = false := by
  obtain hsame | ⟨-, hmem⟩ := exec_phase_cases h
  · exact absurd (hsame.symm.trans ht) hs
  · obtain rfl : i = .magWfall := by cases i <;> simp [ht, nextPhases] at hmem ⊢
    obtain ⟨-, rfl⟩ := exec_magWfall_next.1 h
    simpa [ite_eq_iff, sawFall] using ht

/-- At P_MAG_FALL there is a sample to compare with: MAG_WRISE left one, and only a further sample of
MAG_WFALL takes its place. -/
theorem exec_sampled (hs : s.phase = .magFall → s.monPrev ≠ none) (h : exec i s = .next t)
    (ht : t.phase = .magFall) : t.monPrev ≠ none := by
  obtain ⟨-, -, -, -, -, -, -, -, -, -, -, -, -, -, -, howner, -⟩ :=
    Proofs.onlyTheOwnersWriteEachRegister i s t h
  by_cases hprev : t.monPrev = s.monPrev
  · obtain hsame | ⟨-, hmem⟩ := exec_phase_cases h
    · exact hprev ▸ hs (hsame.symm.trans ht)
    · obtain rfl : i = .magWrise := by cases i <;> simp [ht, nextPhases] at hmem ⊢
      obtain ⟨-, rfl⟩ := exec_magWrise_next.1 h
      exact Option.some_ne_none _
  · obtain rfl | rfl | rfl := howner hprev
    · obtain ⟨-, rfl⟩ := exec_magDi_next.1 h
      cases ht
    · obtain ⟨-, rfl⟩ := exec_magWrise_next.1 h
      exact Option.some_ne_none _
    · obtain ⟨-, rfl⟩ := exec_magWfall_next.1 h
      exact Option.some_ne_none _

/-! ### P_LED (45_aux_signaling.md R201) -/

/-- Only LEDUPD takes the sequencer on from P_LED. -/
theorem exec_leaves_led (h : exec i s = .next t) (hs : s.phase = .led) (ht : t.phase ≠ .led) :
    i = .ledupd := by
  obtain hsame | ⟨hi, -⟩ := exec_phase_cases h
  · exact absurd (hsame.trans hs) ht
  · cases i <;> simp [hs, phaseOf] at hi ⊢

end Sys2Proof.Machine

namespace Sys2Proof.Safety

open Sys2Proof.Machine

variable {i : Instr} {s t : State}

/-- A service in progress is one that ISR_RUN has just started, or one that the step leaves in progress. -/
theorem InterruptOk.service_of_exec (hs : InterruptOk s) (h : exec i s = .next t)
    (hin : t.inIsr = true) : t.pend = true ∧ t.ie = true := by
  cases hisr : s.inIsr with
  | true =>
    obtain ⟨hpend, hie⟩ := hs.service hisr
    have henabled : enabled i s = true := (exec_completes_iff i s).1 ⟨t, h⟩
    obtain rfl | rfl | ⟨S, rfl⟩ | ⟨b, rfl⟩ := (enabled_inService_iff hisr).1 henabled
    · obtain ⟨-, rfl⟩ := exec_isrClr_next.1 h
      cases hin
    · obtain rfl := exec_edge_next.1 h
      exact ⟨rfl, hie⟩
    · obtain rfl := exec_hostsel_next.1 h
      exact ⟨hpend, hie⟩
    · obtain rfl := exec_hostmon_next.1 h
      exact ⟨hpend, hie⟩
  | false =>
    obtain ⟨-, -, -, -, -, howner, -⟩ := Proofs.onlyTheOwnersWriteEachRegister i s t h
    obtain rfl | ⟨S, rfl⟩ := howner (by simp [hin, hisr])
    · obtain ⟨hclr, -⟩ := exec_isrClr_next.1 h
      exact absurd (hisr.symm.trans hclr) Bool.false_ne_true
    · obtain ⟨⟨⟨hie, hpend, -⟩, -⟩, rfl⟩ := exec_isrRun_next.1 h
      exact ⟨hpend, hie⟩

/-- INIT and MAG_EI set IE and leave the masked phases, MAG_DI clears IE and enters them, and nothing else
writes IE or crosses their border (45_aux_signaling.md R213). -/
theorem InterruptOk.of_exec (hs : InterruptOk s) (h : exec i s = .next t) : InterruptOk t := by
  refine ⟨?_, hs.service_of_exec h⟩
  by_cases hinit : i = .init
  · subst hinit
    obtain ⟨-, rfl⟩ := exec_init_next.1 h
    simp [maskedPhases]
  by_cases hdi : i = .magDi
  · subst hdi
    obtain ⟨-, rfl⟩ := exec_magDi_next.1 h
    simp [maskedPhases]
  by_cases hei : i = .magEi
  · subst hei
    obtain ⟨-, rfl⟩ := exec_magEi_next.1 h
    simp [maskedPhases]
  obtain ⟨hie, hphase⟩ := exec_mask h hinit hdi hei
  rw [hie, hphase]
  exact hs.mask

/-- MAG_ASSERT sets MAG and enters the pulse's phases, MAG_REL clears MAG and leaves them, and nothing else
writes MAG or crosses their border (45_aux_signaling.md R214). -/
theorem MagicOk.of_exec (hs : MagicOk s) (h : exec i s = .next t) : MagicOk t := by
  refine ⟨?_, exec_sampled hs.sampled h⟩
  by_cases hassert : i = .magAssert
  · subst hassert
    obtain ⟨-, rfl⟩ := exec_magAssert_next.1 h
    simp
  by_cases hrel : i = .magRel
  · subst hrel
    obtain ⟨-, rfl⟩ := exec_magRel_next.1 h
    simp
  obtain ⟨hmag, hphase⟩ := exec_pulse h hassert hrel
  simpa [hmag, hs.pulse] using hphase.symm

/-- LEDUPD makes LED agree, PUBLISH goes to P_LED, and nothing else writes LED, changes the active table or
leaves P_LED (45_aux_signaling.md R202). -/
theorem LedOk.of_exec (hs : LedOk s) (h : exec i s = .next t) : LedOk t := by
  intro ht
  by_cases hled : i = .ledupd
  · subst hled
    obtain ⟨-, rfl⟩ := exec_ledupd_next.1 h
    exact ledOf_eq_true
  by_cases hpub : i = .publish
  · subst hpub
    obtain ⟨-, rfl⟩ := exec_publish_next.1 h
    exact absurd rfl ht
  obtain ⟨-, -, -, -, -, -, -, howner, -⟩ := Proofs.onlyTheOwnersWriteEachRegister i s t h
  have hphase : s.phase ≠ .led := fun hs => hled (exec_leaves_led h hs ht)
  rw [not_imp_comm.1 howner hled, exec_activeEntry hpub h]
  exact hs hphase

end Sys2Proof.Safety

namespace Sys2Proof.Proofs

open Sys2Proof.Machine Sys2Proof.Safety

/-- Settles O41: the word is the encoder's, LED takes the value `ledOf` gives it, and in a compiled table entry
0x00 is the one of all rows. -/
theorem ledShowsThePublishedMatrix : Obligations.LedShowsThePublishedMatrix := by
  refine ⟨decode_encode .ledupd, fun s hphase hisr => ⟨fun hidle => ?_, fun hpressed => ?_,
    fun m htable => ?_⟩⟩
  · rw [exec_ledupd hphase hisr, hidle]
    rfl
  · rw [exec_ledupd hphase hisr, ledOf_eq_true.2 hpressed]
  · rw [htable 0x00#8]
    exact entry_allRows_ne_idle_iff

/-- Settles O46: `filter_idle_magicWithHost` for the words and `perform_magicWithHost` for the run. -/
theorem magicHandshakeCompletes : Obligations.MagicHandshakeCompletes :=
  ⟨filter_idle_magicWithHost, fun lows highs _ hphase hisr =>
    perform_magicWithHost hphase hisr lows highs⟩

/-- Settles O47: the first sample is kept, and the further ones are the same. -/
theorem magicWaitSpinsWithoutEdges : Obligations.MagicWaitSpinsWithoutEdges := by
  intro n s hisr
  exact ⟨fun hphase hedge => perform_magWrise_wait hphase hisr hedge n,
    fun hphase hedge => perform_magWfall_wait hphase hisr hedge n⟩

/-- Settles O48: `InterruptOk.of_exec`; the schedule and the draw count are none of the invariant's. -/
theorem everyStepKeepsTheInterruptMask : Obligations.EveryStepKeepsTheInterruptMask :=
  kept_of_exec (fun _ _ _ hs => ⟨hs.mask, hs.service⟩) fun _ _ _ hs h => hs.of_exec h

/-- Settles O49: `MagicOk.of_exec`; of MAG's two owners only MAG_ASSERT sets it, and `exec_enters_magAssert`
says what comes before. -/
theorem magicLineIsAPulse : Obligations.MagicLineIsAPulse := by
  refine ⟨kept_of_exec (fun _ _ _ hs => ⟨hs.pulse, hs.sampled⟩) fun _ _ _ hs h => hs.of_exec h,
    fun i s t h hlow hhigh => ?_, fun i s t => exec_enters_magAssert⟩
  obtain ⟨-, -, -, -, -, -, -, -, -, howner, -⟩ := onlyTheOwnersWriteEachRegister i s t h
  obtain rfl | rfl := howner (by simp [hlow, hhigh])
  · obtain ⟨⟨hphase, -⟩, -⟩ := exec_magAssert_next.1 h
    exact ⟨rfl, hphase⟩
  · obtain ⟨-, rfl⟩ := exec_magRel_next.1 h
    cases hhigh

/-- Settles O50: `LedOk.of_exec`; the schedule and the draw count are none of the invariant's. -/
theorem everyStepKeepsTheLedTrue : Obligations.EveryStepKeepsTheLedTrue :=
  kept_of_exec (fun _ _ _ hs => hs) fun _ _ _ hs h => hs.of_exec h

/-- Settles O42: the word is the encoder's, RESET_OUT is RST, and MAGREQ chooses the phase. -/
theorem rstupdDrivesTheResetLine : Obligations.RstupdDrivesTheResetLine := by
  refine ⟨decode_encode .rstupd, fun s hphase hisr => ⟨_, exec_rstupd hphase hisr, rfl,
    fun hreq => ?_, fun hreq => ?_⟩⟩ <;> simp [hreq]

/-- Settles O43: the wait with the edge it waits for and without. -/
theorem magWriseWaitsForARisingEdge : Obligations.MagWriseWaitsForARisingEdge := by
  refine ⟨decode_encode .magWrise, fun s hphase hisr => ⟨fun ⟨hprev, hmon⟩ => ?_,
    exec_magWrise_wait hphase hisr⟩⟩
  rw [exec_magWrise_edge hphase hisr hprev hmon, hmon]

/-- Settles O44: the wait with the edge it waits for and without. -/
theorem magWfallWaitsForAFallingEdge : Obligations.MagWfallWaitsForAFallingEdge := by
  refine ⟨decode_encode .magWfall, fun s hphase hisr => ⟨fun ⟨hprev, hmon⟩ => ?_,
    exec_magWfall_wait hphase hisr⟩⟩
  rw [exec_magWfall_edge hphase hisr hprev hmon, hmon]

/-- Settles O45: the words are the encoder's, and the line's level follows MAG. -/
theorem magicActionsInOrder : Obligations.MagicActionsInOrder := by
  refine ⟨decode_encode .magDi, decode_encode .magAssert, decode_encode .magHold, decode_encode .magRel,
    decode_encode .magEi, fun s hisr => ⟨fun hphase => ?_, fun hphase => ?_, fun hphase => ?_,
    fun hphase => ?_, fun hphase => ?_⟩⟩
  · exact exec_magDi_next.2 ⟨⟨hphase, hisr⟩, rfl⟩
  · exact ⟨_, exec_magAssert_next.2 ⟨⟨hphase, hisr⟩, rfl⟩, rfl, rfl⟩
  · exact exec_magHold_next.2 ⟨⟨hphase, hisr⟩, rfl⟩
  · exact ⟨_, exec_magRel_next.2 ⟨⟨hphase, hisr⟩, rfl⟩, rfl, rfl⟩
  · exact exec_magEi_next.2 ⟨⟨hphase, hisr⟩, rfl⟩

end Sys2Proof.Proofs
end

section
/-! PROOFS. The exceptions family (60_exceptions.md): the refusals ahead of every operation, and the states no
step leaves for them. -/

namespace Sys2Proof.Machine

open Sys2Proof.Safety

variable {i : Instr} {s t : State}

/-! ### The refusals ahead of every operation (60_exceptions.md R232; log entry 15) -/

theorem State.refusal_of_illFormed (hwf : s.cfg.wf = false) : s.refusal = some .illFormedConfig :=
  if_pos hwf

theorem State.refusal_of_unreachable (hwf : s.cfg.wf = true) (hphase : s.phase = .unreachable) :
    s.refusal = some .unreachablePhase := by
  simp [State.refusal, hwf, hphase]

theorem step_of_refusal {r : Refusal} (h : s.refusal = some r) : step s = .refused r := by
  simp [step, fetch, h]

/-! ### PHASE never becomes 15 (60_exceptions.md R234) -/

theorem unreachable_notMem_nextPhases (i : Instr) : Phase.unreachable ∉ nextPhases i := by
  cases i <;> simp [nextPhases]

theorem exec_phase_ne_unreachable (hs : s.phase ≠ .unreachable) (h : exec i s = .next t) :
    t.phase ≠ .unreachable := by
  obtain hsame | ⟨-, hmem⟩ := exec_phase_cases h
  · exact hsame ▸ hs
  · exact ne_of_mem_of_not_mem hmem (unreachable_notMem_nextPhases i)

/-- The configuration has no writer (20_memory.md R64). -/
theorem exec_cfg (h : exec i s = .next t) : t.cfg = s.cfg := by
  obtain ⟨-, -, hcfg⟩ := Proofs.exec_keeps_snap_matrix_cfg h
  exact hcfg

end Sys2Proof.Machine

namespace Sys2Proof.Safety

open Sys2Proof.Machine

theorem Legal.of_exec {i : Instr} {s t : State} (hs : Legal s) (h : exec i s = .next t) : Legal t where
  wellFormed := exec_cfg h ▸ hs.wellFormed
  phase := exec_phase_ne_unreachable hs.phase h

end Sys2Proof.Safety

namespace Sys2Proof.Proofs

open Sys2Proof.Machine Sys2Proof.Safety

/-- Settles O55: `Legal.of_exec`; the schedule and the draw count are none of a legal state's. -/
theorem everyStepKeepsTheStateLegal : Obligations.EveryStepKeepsTheStateLegal :=
  ⟨kept_of_exec (fun _ _ _ hs => ⟨hs.wellFormed, hs.phase⟩) fun _ _ _ hs h => hs.of_exec h,
    fun _ _ _ => exec_cfg⟩

/-- Settles O4: a refusal of the state stands ahead of every operation. -/
theorem stepRefusesByName : Obligations.StepRefusesByName := fun _ =>
  ⟨fun hwf => step_of_refusal (State.refusal_of_illFormed hwf),
    fun hwf hphase => step_of_refusal (State.refusal_of_unreachable hwf hphase)⟩

end Sys2Proof.Proofs
end

section
/-! PROOFS. The reset family (70_reset_and_hazards.md): the reset tables, INIT, and the idle output until the
first publication. -/

namespace Sys2Proof.Machine

variable {s : State}

/-! ### INIT (70_reset_and_hazards.md R262) -/

theorem exec_init (hphase : s.phase = .init) (hisr : s.inIsr = false) :
    exec .init s = .next { s with ie := true, phase := .poll } :=
  exec_init_next.2 ⟨⟨hphase, hisr⟩, rfl⟩

/-! ### The idle tables (10_state.md R20, 42_table_compiler.md R156 (e)) -/

/-- Table memory that lists nothing reads 0xFF at every entry. -/
theorem State.entryAt_of_tbl_nil (htbl : s.tbl = []) (slot : Slot) (S : Byte) :
    s.entryAt slot S = 0xFF#8 :=
  (holdsTable_clear_of_tbl_nil htbl slot S).trans (entry_clear S)

end Sys2Proof.Machine

namespace Sys2Proof.Proofs

open Sys2Proof.Machine

/-- Settles O58: a service's OUT is an entry of the active table, and by `exec_activeEntry` only PUBLISH gives
the active table other entries. -/
theorem idleOutputUntilTheFirstPublication : Obligations.IdleOutputUntilTheFirstPublication := by
  refine ⟨fun s t S hidle h => ?_, fun i s t hi hidle h S => ?_⟩
  · obtain ⟨-, rfl⟩ := exec_isrRun_next.1 h
    exact hidle s.selIn
  · exact (exec_activeEntry hi h S).trans (hidle S)

/-- Settles O11: the word is the encoder's, and the strobe before INIT is pending when INIT sets IE, so that it
is served from the empty table memory. -/
theorem initEnablesTheStrobe : Obligations.InitEnablesTheStrobe := by
  refine ⟨decode_encode .init, fun s => exec_init, fun s hdisabled t h => ?_,
    fun cfg out selIn monIn => ?_⟩
  · obtain ⟨henabled, -⟩ := exec_init_next.1 h
    exact hdisabled henabled
  · exact ⟨_, perform_step rfl (perform_step (exec_init rfl rfl)
      (perform_step (exec_isrRun rfl rfl rfl rfl) rfl)), State.entryAt_of_tbl_nil rfl _ _⟩

/-- Settles O12: both kinds of reset leave table memory empty, and each register holds its reset value. -/
theorem resetLeavesTheBlockIdle : Obligations.ResetLeavesTheBlockIdle := by
  rintro cfg out selIn monIn s (rfl | ⟨s₀, rfl, rfl⟩)
  · exact ⟨State.entryAt_of_tbl_nil rfl, by simp [State.resetDraw]⟩
  · exact ⟨State.entryAt_of_tbl_nil rfl, by simp⟩

end Sys2Proof.Proofs
end
